-- ==== Sys2Proof/Word.lean ====
section
/-! DEFINITION. The words and the closed sets of names the CORE's ports and registers carry. -/

namespace Sys2Proof

/-- A 2-bit symbol code on a port or in a register (30_encoding.md R70). Code 0b11 is reserved (R71). -/
abbrev SymCode := BitVec 2

/-- A payload vector (R72), 100 wires wide for both frame widths: an instance has wires `W-1 .. 0` only. -/
abbrev Payload := BitVec 100

/-- A timestamp word (R75). -/
abbrev TsWord := BitVec 38

/-- The 9-bit operation vector (R82): block id in bits 8..6, control vector in bits 5..0. -/
abbrev OpVector := BitVec 9

/-- The three symbols (R70). -/
inductive Symbol where
  | zero
  | one
  | marker
deriving DecidableEq, Repr

/-- The bootstrap phase (10_state.md R24), with the unreachable code 0b11 (30_encoding.md R77) named. -/
inductive Phase where
  | await
  | latch
  | stream
  | code3
deriving DecidableEq, Repr

/-- The result status (R76). `unknownVariant` is a name only: no operation produces it (R12, R235). -/
inductive Status where
  | ok
  | invalidYear
  | malformedFrame
  | incompleteFrame
  | unknownVariant
deriving DecidableEq, Repr

/-- The five fields of a timestamp (R75), as numbers. -/
structure Timestamp where
  sec  : Nat
  min  : Nat
  hr   : Nat
  day  : Nat
  year : Nat
deriving DecidableEq, Repr

/-- The eleven BCD digits of a frame (40_codec.md R102): seconds, minutes, hours, day of year, year offset; units,
tens, hundreds. -/
inductive Digit where
  | secU
  | secT
  | minU
  | minT
  | hrU
  | hrT
  | dayU
  | dayT
  | dayH
  | yrU
  | yrT
deriving DecidableEq, Repr

end Sys2Proof
end

