-- ==== Sys2Proof/Config.lean ====
section
/-! DEFINITION. What elaboration fixes (00_scope.md R6 to R12), and the values the spec leaves undefined. -/

namespace Sys2Proof

/-- The six variants (00_scope.md R6). -/
inductive Variant where
  | a
  | b
  | d
  | e
  | g
  | h
deriving DecidableEq, Repr

/-- The elaboration constants of one instance (R12). `lastTick` is P - 1, the tick number at which a bit period
ends, so every value of this type is a legal instance: P ≥ 1 and, through the variant, W ∈ {60, 100}. -/
structure Config where
  variant  : Variant
  lastTick : Nat
deriving DecidableEq, Repr

/-- The elaboration errors (R12, 60_exceptions.md R235): with any of them no instance exists. -/
inductive ElabError where
  /-- The variant name is none of A, B, D, E, G, H: status code 4, a name only. -/
  | unknownVariant
  /-- The frame width is neither 60 nor 100. -/
  | illegalWidth
  /-- P is zero or negative. -/
  | illegalPulse
deriving DecidableEq, Repr

/-- FREE VALUE. What the registers hold before the first reset edge (10_state.md R38: "It must not pick zero or any
other value"). Argument: a number that tells the registers apart. UNVERIFIED by nature; nothing can evaluate it. -/
opaque Config.powerOnValue : Nat → Nat

end Sys2Proof
end

