-- ==== Sys2Proof/Syntax.lean ====
section
/-! DEFINITION. The operations of the CORE: one constructor per row of spec/opcode_table.json. The control bits that
a row's mask leaves open are its operands (30_encoding.md section 3), so that an operation vector and an `Instr` say
the same. -/

namespace Sys2Proof

/-- The operations (30_encoding.md section 4). Operand names are those of R83 to R85; `spare` and `ctl` are control
bits no rule names (R83, R86: ignored). Bit 0 stands first in each list of flags. -/
inductive Instr where
  -- tfc_enc, tfc_dec
  | encode (ctl : BitVec 6)
  | decode (ctl : BitVec 6)
  -- irig_tx, symbol-encoder half
  | encReset (en last : Bool) (spare : BitVec 3)
  | encHold (last : Bool) (spare : BitVec 3)
  | encTick (spare : BitVec 3)
  | encTickLast (spare : BitVec 3)
  -- irig_tx, frame-sequencer half
  | seqReset (en req : Bool) (phase : BitVec 2) (last : Bool)
  | seqHold (req : Bool) (phase : BitVec 2) (last : Bool)
  | seqAwaitIdle (last : Bool)
  | seqAwaitReq (last : Bool)
  | seqLatchFirst (req last : Bool)
  | seqStreamIdle (last : Bool)
  | seqStreamAdvance
  | seqStreamWrap
  | seqReservedPhase3 (req last : Bool)
  -- irig_rx
  | rxReset (done ended valid sample prev : Bool)
  | rxDoneHold (ended valid sample prev : Bool)
  | rxEnd (valid sample prev : Bool)
  | rxIdle (sample prev : Bool)
  | rxHigh (prev : Bool)
  | rxLow
  | rxFall
  -- no block
  | reservedBlock5 (ctl : BitVec 6)
  | reservedBlock6 (ctl : BitVec 6)
  | reservedBlock7 (ctl : BitVec 6)
deriving DecidableEq, Repr

end Sys2Proof
end

