-- ==== Sys2Proof/WellFormed.lean ====
section
/-! DEFINITION. Which operations the spec gives a meaning: all but the two kinds of reserved vector (R88). -/

namespace Sys2Proof

/-- The vector names one of the five blocks (R88: block ids 0b101 to 0b111 name none). -/
def Instr.namesABlock : Instr → Bool
  | .reservedBlock5 _ | .reservedBlock6 _ | .reservedBlock7 _ => false
  | .encode _ | .decode _ => true
  | .encReset .. | .encHold .. | .encTick .. | .encTickLast .. => true
  | .seqReset .. | .seqHold .. | .seqAwaitIdle .. | .seqAwaitReq .. | .seqLatchFirst .. => true
  | .seqStreamIdle .. | .seqStreamAdvance | .seqStreamWrap | .seqReservedPhase3 .. => true
  | .rxReset .. | .rxDoneHold .. | .rxEnd .. | .rxIdle .. | .rxHigh .. | .rxLow | .rxFall => true

/-- The vector is not an enabled sequencer vector of phase 0b11 (R88, R170). -/
def Instr.phaseIsNamed : Instr → Bool
  | .seqReservedPhase3 .. => false
  | .encode _ | .decode _ => true
  | .encReset .. | .encHold .. | .encTick .. | .encTickLast .. => true
  | .seqReset .. | .seqHold .. | .seqAwaitIdle .. | .seqAwaitReq .. | .seqLatchFirst .. => true
  | .seqStreamIdle .. | .seqStreamAdvance | .seqStreamWrap => true
  | .rxReset .. | .rxDoneHold .. | .rxEnd .. | .rxIdle .. | .rxHigh .. | .rxLow | .rxFall => true
  | .reservedBlock5 _ | .reservedBlock6 _ | .reservedBlock7 _ => true

/-- A well-formed operation: one the hardware has. -/
def Instr.wellFormed (i : Instr) : Bool := i.namesABlock && i.phaseIsNamed

end Sys2Proof
end

