-- ==== Sys2Proof/Decode.lean ====
section
/-! DEFINITION. The operation vector (30_encoding.md R82 to R88): its bits, the decoder, the encoder, and the rows
of spec/opcode_table.json as data. -/

namespace Sys2Proof

/-- The block id, bits 8..6 (R82). -/
def blockOf (v : OpVector) : BitVec 3 := v.extractLsb' 6 3

/-- The encoder half's control vector (R83): bit 0 `rst`, bit 1 `en`, bit 2 `last`, bits 5..3 ignored. -/
def decodeEncoder (v : OpVector) : Instr :=
  let spare := v.extractLsb' 3 3
  match v.getLsbD 0, v.getLsbD 1, v.getLsbD 2 with
  | true, en, last => .encReset en last spare
  | false, false, last => .encHold last spare
  | false, true, false => .encTick spare
  | false, true, true => .encTickLast spare

/-- The sequencer half's control vector (R84): bit 0 `rst`, bit 1 `en`, bit 2 `req`, bits 4..3 phase, bit 5 `last`. -/
def decodeSequencer (v : OpVector) : Instr :=
  let req := v.getLsbD 2
  let last := v.getLsbD 5
  match v.getLsbD 0, v.getLsbD 1 with
  | true, en => .seqReset en req (v.extractLsb' 3 2) last
  | false, false => .seqHold req (v.extractLsb' 3 2) last
  | false, true =>
    match v.getLsbD 4, v.getLsbD 3, req, last with
    | false, false, false, l => .seqAwaitIdle l
    | false, false, true, l => .seqAwaitReq l
    | false, true, r, l => .seqLatchFirst r l
    | true, false, false, l => .seqStreamIdle l
    | true, false, true, false => .seqStreamAdvance
    | true, false, true, true => .seqStreamWrap
    | true, true, r, l => .seqReservedPhase3 r l

/-- The receiver's control vector (R85): bit 0 `rx_rst`, 1 `done`, 2 `rx_end`, 3 `rx_valid`, 4 `rx_sample`,
5 `rx_prev`; the priorities are those of 60_exceptions.md R238. -/
def decodeReceiver (v : OpVector) : Instr :=
  let sample := v.getLsbD 4
  let prev := v.getLsbD 5
  match v.getLsbD 0, v.getLsbD 1, v.getLsbD 2, v.getLsbD 3 with
  | true, done, ended, valid => .rxReset done ended valid sample prev
  | false, true, ended, valid => .rxDoneHold ended valid sample prev
  | false, false, true, valid => .rxEnd valid sample prev
  | false, false, false, false => .rxIdle sample prev
  | false, false, false, true =>
    match sample, prev with
    | true, p => .rxHigh p
    | false, false => .rxLow
    | false, true => .rxFall

/-- The decoder (R87: total on the five legal block ids; R88 names the rest). -/
def decodeVector (v : OpVector) : Instr :=
  let ctl := v.extractLsb' 0 6
  match v.getLsbD 8, v.getLsbD 7, v.getLsbD 6 with
  | false, false, false => .encode ctl
  | false, false, true => .decode ctl
  | false, true, false => decodeEncoder v
  | false, true, true => decodeSequencer v
  | true, false, false => decodeReceiver v
  | true, false, true => .reservedBlock5 ctl
  | true, true, false => .reservedBlock6 ctl
  | true, true, true => .reservedBlock7 ctl

/-- Why a number is no operation vector. -/
inductive DecodeError where
  /-- A bit above bit 8 is set: the vector has nine wires (R82). -/
  | wireAboveBit8
deriving DecidableEq, Repr

/-- The decoder on a number of any size. -/
def decodeNat (w : Nat) : Except DecodeError Instr :=
  if w < 512 then .ok (decodeVector (BitVec.ofNat 9 w)) else .error .wireAboveBit8

/-- The decoder on bytes, first byte least significant: DESIGN CHOICE, log 28 (a vector has no byte form). -/
def decodeBytes (bytes : List (BitVec 8)) : Except DecodeError Instr :=
  decodeNat (bytes.foldr (fun b acc => b.toNat + 256 * acc) 0)

/-- The instruction read from a table row's bits. A vector is nine wires and is stored nowhere; the bits above
`nbits` are zero, so `w` is the whole vector whatever `nbits` is. -/
def decodeTableWord (_nbits w : Nat) : Option Instr :=
  (decodeNat w).toOption

/-- The encoder: the operation vector of an operation, from the match column of 30_encoding.md section 4 with the
operands in the bits the mask column leaves open. -/
def encode : Instr → OpVector
  | .encode ctl => (0b000 : BitVec 3) ++ ctl
  | .decode ctl => (0b001 : BitVec 3) ++ ctl
  | .encReset en last spare => (0b010 : BitVec 3) ++ spare ++ BitVec.ofBool last ++ BitVec.ofBool en ++ (0b1 : BitVec 1)
  | .encHold last spare => (0b010 : BitVec 3) ++ spare ++ BitVec.ofBool last ++ (0b00 : BitVec 2)
  | .encTick spare => (0b010 : BitVec 3) ++ spare ++ (0b010 : BitVec 3)
  | .encTickLast spare => (0b010 : BitVec 3) ++ spare ++ (0b110 : BitVec 3)
  | .seqReset en req phase last =>
    (0b011 : BitVec 3) ++ BitVec.ofBool last ++ phase ++ BitVec.ofBool req ++ BitVec.ofBool en ++ (0b1 : BitVec 1)
  | .seqHold req phase last =>
    (0b011 : BitVec 3) ++ BitVec.ofBool last ++ phase ++ BitVec.ofBool req ++ (0b00 : BitVec 2)
  | .seqAwaitIdle last => (0b011 : BitVec 3) ++ BitVec.ofBool last ++ (0b00010 : BitVec 5)
  | .seqAwaitReq last => (0b011 : BitVec 3) ++ BitVec.ofBool last ++ (0b00110 : BitVec 5)
  | .seqLatchFirst req last =>
    (0b011 : BitVec 3) ++ BitVec.ofBool last ++ (0b01 : BitVec 2) ++ BitVec.ofBool req ++ (0b10 : BitVec 2)
  | .seqStreamIdle last => (0b011 : BitVec 3) ++ BitVec.ofBool last ++ (0b10010 : BitVec 5)
  | .seqStreamAdvance => 0x0D6
  | .seqStreamWrap => 0x0F6
  | .seqReservedPhase3 req last =>
    (0b011 : BitVec 3) ++ BitVec.ofBool last ++ (0b11 : BitVec 2) ++ BitVec.ofBool req ++ (0b10 : BitVec 2)
  | .rxReset done ended valid sample prev =>
    (0b100 : BitVec 3) ++ BitVec.ofBool prev ++ BitVec.ofBool sample ++ BitVec.ofBool valid ++ BitVec.ofBool ended
      ++ BitVec.ofBool done ++ (0b1 : BitVec 1)
  | .rxDoneHold ended valid sample prev =>
    (0b100 : BitVec 3) ++ BitVec.ofBool prev ++ BitVec.ofBool sample ++ BitVec.ofBool valid ++ BitVec.ofBool ended
      ++ (0b10 : BitVec 2)
  | .rxEnd valid sample prev =>
    (0b100 : BitVec 3) ++ BitVec.ofBool prev ++ BitVec.ofBool sample ++ BitVec.ofBool valid ++ (0b100 : BitVec 3)
  | .rxIdle sample prev => (0b100 : BitVec 3) ++ BitVec.ofBool prev ++ BitVec.ofBool sample ++ (0b0000 : BitVec 4)
  | .rxHigh prev => (0b100 : BitVec 3) ++ BitVec.ofBool prev ++ (0b11000 : BitVec 5)
  | .rxLow => 0x108
  | .rxFall => 0x128
  | .reservedBlock5 ctl => (0b101 : BitVec 3) ++ ctl
  | .reservedBlock6 ctl => (0b110 : BitVec 3) ++ ctl
  | .reservedBlock7 ctl => (0b111 : BitVec 3) ++ ctl

/-- A row of the opcode map: a vector is the row's when its bits under `mask` are `pattern`. -/
structure OpRow where
  pattern : OpVector
  mask    : OpVector
deriving DecidableEq, Repr

def OpRow.matches (r : OpRow) (v : OpVector) : Bool := v &&& r.mask == r.pattern

/-- The row of each operation (30_encoding.md section 4). -/
def Instr.row : Instr → OpRow
  | .encode _ => ⟨0x000, 0x1C0⟩
  | .decode _ => ⟨0x040, 0x1C0⟩
  | .encReset .. => ⟨0x081, 0x1C1⟩
  | .encHold .. => ⟨0x080, 0x1C3⟩
  | .encTick .. => ⟨0x082, 0x1C7⟩
  | .encTickLast .. => ⟨0x086, 0x1C7⟩
  | .seqReset .. => ⟨0x0C1, 0x1C1⟩
  | .seqHold .. => ⟨0x0C0, 0x1C3⟩
  | .seqAwaitIdle .. => ⟨0x0C2, 0x1DF⟩
  | .seqAwaitReq .. => ⟨0x0C6, 0x1DF⟩
  | .seqLatchFirst .. => ⟨0x0CA, 0x1DB⟩
  | .seqStreamIdle .. => ⟨0x0D2, 0x1DF⟩
  | .seqStreamAdvance => ⟨0x0D6, 0x1FF⟩
  | .seqStreamWrap => ⟨0x0F6, 0x1FF⟩
  | .seqReservedPhase3 .. => ⟨0x0DA, 0x1DB⟩
  | .rxReset .. => ⟨0x101, 0x1C1⟩
  | .rxDoneHold .. => ⟨0x102, 0x1C3⟩
  | .rxEnd .. => ⟨0x104, 0x1C7⟩
  | .rxIdle .. => ⟨0x100, 0x1CF⟩
  | .rxHigh .. => ⟨0x118, 0x1DF⟩
  | .rxLow => ⟨0x108, 0x1FF⟩
  | .rxFall => ⟨0x128, 0x1FF⟩
  | .reservedBlock5 _ => ⟨0x140, 0x1C0⟩
  | .reservedBlock6 _ => ⟨0x180, 0x1C0⟩
  | .reservedBlock7 _ => ⟨0x1C0, 0x1C0⟩

/-- The opcode map, in the order of spec/opcode_table.json. -/
def opTable : List OpRow :=
  [⟨0x000, 0x1C0⟩, ⟨0x040, 0x1C0⟩]
  ++ [⟨0x081, 0x1C1⟩, ⟨0x080, 0x1C3⟩, ⟨0x082, 0x1C7⟩, ⟨0x086, 0x1C7⟩]
  ++ [⟨0x0C1, 0x1C1⟩, ⟨0x0C0, 0x1C3⟩, ⟨0x0C2, 0x1DF⟩, ⟨0x0C6, 0x1DF⟩, ⟨0x0CA, 0x1DB⟩, ⟨0x0D2, 0x1DF⟩]
  ++ [⟨0x0D6, 0x1FF⟩, ⟨0x0F6, 0x1FF⟩, ⟨0x0DA, 0x1DB⟩]
  ++ [⟨0x101, 0x1C1⟩, ⟨0x102, 0x1C3⟩, ⟨0x104, 0x1C7⟩, ⟨0x100, 0x1CF⟩, ⟨0x118, 0x1DF⟩, ⟨0x108, 0x1FF⟩, ⟨0x128, 0x1FF⟩]
  ++ [⟨0x140, 0x1C0⟩, ⟨0x180, 0x1C0⟩, ⟨0x1C0, 0x1C0⟩]

end Sys2Proof
end

