-- ==== Sys2Proof/Machine/Codes.lean ====
section
/-! DEFINITION. The binary codes of the enumerations (30_encoding.md R70, R71, R76, R77) and the packed forms of
frames and timestamps on ports (R72 to R75). -/

namespace Sys2Proof

/-- R70. -/
def Symbol.code : Symbol → SymCode
  | .zero => 0b00
  | .one => 0b01
  | .marker => 0b10

/-- R70; the reserved code 0b11 (R71) names no symbol. -/
def Symbol.ofCode (c : SymCode) : Option Symbol :=
  match c.getLsbD 1, c.getLsbD 0 with
  | false, false => some .zero
  | false, true => some .one
  | true, false => some .marker
  | true, true => none

/-- R77. -/
def Phase.code : Phase → BitVec 2
  | .await => 0b00
  | .latch => 0b01
  | .stream => 0b10
  | .code3 => 0b11

/-- R77. -/
def Phase.ofCode (c : BitVec 2) : Phase :=
  match c.getLsbD 1, c.getLsbD 0 with
  | false, false => .await
  | false, true => .latch
  | true, false => .stream
  | true, true => .code3

/-- R76. Codes 5 to 7 are reserved and belong to no status. -/
def Status.code : Status → BitVec 3
  | .ok => 0
  | .invalidYear => 1
  | .malformedFrame => 2
  | .incompleteFrame => 3
  | .unknownVariant => 4

/-- Bit i of the number is element i of the list. -/
def packBits : List Bool → Nat
  | [] => 0
  | b :: bs => b.toNat + 2 * packBits bs

/-- Element i of the list at bits 2i+1..2i (R73). -/
def packCodes : List SymCode → Nat
  | [] => 0
  | c :: cs => c.toNat + 4 * packCodes cs

/-- The payload vector of a frame (R72, 40_codec.md R119): bit i is 1 exactly when symbol i is One. -/
def payloadOf (frame : List Symbol) : Payload :=
  BitVec.ofNat 100 (packBits (frame.map (· == Symbol.one)))

/-- The symbol vector of a frame as a port word (R73): 2W bits, at most 200. -/
def symbolVector (codes : List SymCode) : BitVec 200 := BitVec.ofNat 200 (packCodes codes)

/-- The W wires an instance of width W has, of a 100-wire payload vector. -/
def wires (W : Nat) (v : Payload) : Payload := (v.setWidth W).setWidth 100

/-- The fields of a timestamp word (R75). -/
def Timestamp.ofWord (w : TsWord) : Timestamp :=
  { sec  := (w.extractLsb' 0 6).toNat
    min  := (w.extractLsb' 6 6).toNat
    hr   := (w.extractLsb' 12 5).toNat
    day  := (w.extractLsb' 17 9).toNat
    year := (w.extractLsb' 26 12).toNat }

/-- The word of a timestamp (R75), each field cut to its bits. -/
def Timestamp.toWord (t : Timestamp) : TsWord :=
  BitVec.ofNat 12 t.year ++ BitVec.ofNat 9 t.day ++ BitVec.ofNat 5 t.hr ++ BitVec.ofNat 6 t.min ++ BitVec.ofNat 6 t.sec

/-- A frame in the bit-string notation (R74): `0` Zero, `1` One, `_` Marker; any other character is none. The
length is not checked here (log 29). -/
def frameOfChars : List Char → Option (List Symbol)
  | [] => some []
  | c :: cs =>
    match c, frameOfChars cs with
    | '0', some f => some (Symbol.zero :: f)
    | '1', some f => some (Symbol.one :: f)
    | '_', some f => some (Symbol.marker :: f)
    | _, _ => none

/-- The bit-string notation of a frame (R74). -/
def charsOfFrame (frame : List Symbol) : List Char :=
  frame.map fun
    | .zero => '0'
    | .one => '1'
    | .marker => '_'

end Sys2Proof
end

