-- ==== Sys2Proof/Machine/Params.lean ====
section
/-! DEFINITION. The parameters of an instance (00_scope.md R6 to R12). -/

namespace Sys2Proof

/-- The frame width of a variant (R6). -/
def Variant.width : Variant → Nat
  | .a => 100
  | .b => 100
  | .d => 60
  | .e => 100
  | .g => 100
  | .h => 60

/-- The tick rate of a variant in hertz, as numerator and denominator (R6). Informational: no rule reads it (R9). -/
def Variant.tickRate : Variant → Nat × Nat
  | .a => (10000, 1)
  | .b => (1000, 1)
  | .d => (1, 6)
  | .e => (100, 1)
  | .g => (100000, 1)
  | .h => (10, 1)

/-- W, the number of symbols of a frame (R7). -/
def Config.W (c : Config) : Nat := c.variant.width

/-- P, the number of ticks of a bit period (R8). -/
def Config.P (c : Config) : Nat := c.lastTick + 1

/-- IDX_BITS (R11). -/
def Config.idxBits (c : Config) : Nat := if c.W = 100 then 7 else 6

/-- CNT_BITS (R11). -/
def Config.cntBits (c : Config) : Nat := max 1 (Nat.clog 2 c.P)

/-- The width of the receiver pulse counter (R11). -/
def Config.rxCntBits (c : Config) : Nat := Nat.clog 2 (c.P + 1)

/-- The variant of a name (R6). -/
def Variant.ofName : Char → Option Variant
  | 'A' => some .a
  | 'B' => some .b
  | 'D' => some .d
  | 'E' => some .e
  | 'G' => some .g
  | 'H' => some .h
  | _ => none

/-- Building an instance (R12): the three configurations the hardware refuses build none. The width and P are what
the builder asks for; a legal width that is not the variant's is not this variant's width (R7) and is refused with it (log 17). Of several
reasons the name is answered first, then the width, then P: DESIGN CHOICE, log 24. -/
def Config.elaborate (name : Char) (width : Nat) (pulseTicks : Int) : Except ElabError Config :=
  match Variant.ofName name with
  | none => .error .unknownVariant
  | some v =>
    if width ≠ v.width then .error .illegalWidth
    else if pulseTicks ≤ 0 then .error .illegalPulse
    else .ok ⟨v, pulseTicks.toNat - 1⟩

end Sys2Proof
end

