-- ==== Sys2Proof/Machine/State.lean ====
section
/-! DEFINITION. The state of one CORE instance, the reasons a step can stop, and the state after reset. -/

namespace Sys2Proof.Machine

/-- The symbol-encoder half of `irig_tx` (10_state.md R21 to R23). `live` is false until the half's first reset edge
(70_reset_and_hazards.md R261: the state "unreset"). -/
structure EncRegs where
  live  : Bool
  cnt   : Nat
  level : Bool
  reqQ  : Bool
deriving DecidableEq, Repr

/-- The frame-sequencer half of `irig_tx` (10_state.md R24 to R27). -/
structure SeqRegs where
  live  : Bool
  phase : Phase
  index : Nat
  buf   : Payload
  flQ   : Bool
deriving DecidableEq, Repr

/-- The receiver `irig_rx` (10_state.md R28 to R34). -/
structure RxRegs where
  live   : Bool
  prev   : Bool
  cnt    : Nat
  n      : Nat
  syms   : List SymCode
  done   : Bool
  status : Status
  ts     : TsWord
deriving DecidableEq, Repr

/-- Inputs that hold a value between edges (10_state.md R37): `pending_frame` of `irig_tx`, `sym_in` of its encoder
half, `ts` of `tfc_enc`, `frame_syms` of `tfc_dec`. DESIGN CHOICE, log 8. -/
structure Ports where
  pendingFrame : Payload
  symIn        : SymCode
  tsIn         : TsWord
  frameIn      : List SymCode
deriving DecidableEq, Repr

/-- The output ports of `tfc_enc` (30_encoding.md R78). -/
structure EncPort where
  bits   : Payload
  syms   : List SymCode
  status : Status
deriving DecidableEq, Repr

/-- The output ports of `tfc_dec` (30_encoding.md R79). -/
structure DecPort where
  ts     : TsWord
  status : Status
deriving DecidableEq, Repr

/-- The source of `rx_sample` in a cycle: a level, or the `level` output of `irig_tx` (R89 `LOOP`). -/
inductive Sample where
  | high
  | low
  | txLevel
deriving DecidableEq, Repr

/-- The inputs of `irig_tx` for one edge (30_encoding.md R80). `pend` is a new value of the caller's
`pending_frame`, from this edge on (R89 `TX.PEND`). -/
structure TxDrive where
  rst  : Bool
  en   : Bool
  pend : Option Payload
deriving DecidableEq, Repr

/-- The inputs of `irig_rx` for one edge (30_encoding.md R81). -/
structure RxDrive where
  rst    : Bool
  valid  : Bool
  sample : Sample
  ended  : Bool
deriving DecidableEq, Repr

/-- One line of the host's stimulus (30_encoding.md R89). DESIGN CHOICE, log 6 and log 7. -/
inductive Line where
  /-- One edge of `clk`; a block that is `none` is not part of the set-up and gets no edge. -/
  | edge (tx : Option TxDrive) (rx : Option RxDrive)
  /-- `ENC`: present a timestamp word to `tfc_enc`. -/
  | enc (ts : TsWord)
  /-- `DEC`: present a frame to `tfc_dec`. -/
  | dec (frame : List SymCode)
  /-- Drive one block, or one half of `irig_tx`, alone: `v` gives its block id and control inputs, and the control
  bits that are registers are taken from the registers. `sym` drives `sym_in`; `none` leaves it wired to `symbol`. -/
  | alone (v : Nat) (sym : Option SymCode)
deriving DecidableEq, Repr

/-- Why the machine stops with a fault: never. The CORE has no traps and no stuck states; its errors are results on
status outputs (60_exceptions.md R231, R239). Log 20. -/
inductive Fault where
deriving DecidableEq, Repr

/-- Why the model gives an edge or an evaluation no result (60_exceptions.md R230, R235: "a model must not invent
one"). Each is SAFE: the model stops where the spec gives no behaviour. -/
inductive Refusal where
  /-- Raised by `exec` for an instruction that has no meaning yet. Safe. -/
  | notModelled (mnemonic : String)
  /-- Raised by ENCODE: seconds, minutes, hours or day out of range with a year in range (40_codec.md R108). Safe. -/
  | encodeFieldOutOfRange
  /-- Raised by ENC_TICK and ENC_TICK_LAST: `sym_in` is 0b11 (41_symbol_encoder.md R148). Safe. -/
  | symbolCode3
  /-- Raised by the reserved sequencer vector: enabled edge in phase 0b11 (42_frame_sequencer.md R170). Safe. -/
  | sequencerPhase3
  /-- Raised by the vectors with block id 0b101, 0b110 or 0b111 (30_encoding.md R88). Safe. -/
  | reservedBlock
  /-- Raised by every operation of a half of `irig_tx`, but its reset, before its first reset edge
  (70_reset_and_hazards.md R261). Safe. -/
  | unresetTransmitter
  /-- Raised by every operation of `irig_rx`, but RX_RESET, before its first reset edge (R261). Safe. -/
  | unresetReceiver
  /-- Raised by `step`: the number driven is no 9-bit operation vector (30_encoding.md R82). Safe. -/
  | notAnOperationVector
deriving DecidableEq, Repr

/-- One CORE instance: its elaboration constants, its registers, the values its input ports hold, the codec outputs
as last evaluated, and the stimulus lines the host has yet to apply. -/
structure State where
  cfg      : Config
  enc      : EncRegs
  seq      : SeqRegs
  rx       : RxRegs
  ports    : Ports
  encOut   : EncPort
  decOut   : DecPort
  stimulus : List Line
deriving DecidableEq, Repr

/-- The instance `State.reset` stands for: variant B, P = 10 (00_scope.md R8 default). DESIGN CHOICE, log 1. -/
def State.defaultConfig : Config := ⟨.b, 9⟩

/-- An instance right after a reset edge of `irig_tx` and of `irig_rx`: the table of 10_state.md R39. The ports and
codec outputs are DESIGN CHOICES, log 8 and log 9. -/
def State.resetOf (c : Config) : State :=
  { cfg := c
    enc := ⟨true, 0, false, false⟩
    seq := ⟨true, .await, 0, 0, false⟩
    rx := ⟨true, false, 0, 0, List.replicate c.W 0b00, false, .ok, 0⟩
    ports := ⟨0, Symbol.marker.code, 0, List.replicate c.W 0b00⟩
    encOut := ⟨0, List.replicate c.W 0b00, .invalidYear⟩
    decOut := ⟨0, .malformedFrame⟩
    stimulus := [] }

/-- The machine right after reset. -/
def State.reset : State := State.resetOf State.defaultConfig

/-- An instance before its first reset edge (10_state.md R38): every register at a free value, every half unreset. -/
def State.powerOn (c : Config) : State :=
  let v := Config.powerOnValue
  let bit (k : Nat) : Bool := v k % 2 == 1
  { State.resetOf c with
    enc := ⟨false, v 0, bit 1, bit 2⟩
    seq := ⟨false, Phase.ofCode (BitVec.ofNat 2 (v 3)), v 4, BitVec.ofNat 100 (v 5), bit 6⟩
    rx := ⟨false, bit 7, v 8, v 9, (List.range c.W).map fun i => BitVec.ofNat 2 (v (100 + i)), bit 10,
      [Status.ok, .invalidYear, .malformedFrame, .incompleteFrame].getD (v 11) .unknownVariant,
      BitVec.ofNat 38 (v 12)⟩ }

end Sys2Proof.Machine
end

