-- ==== Sys2Proof/Machine/Operands.lean ====
section
/-! DEFINITION. Where operands come from: the frame layout (40_codec.md R101 to R104, R109, R121), the digits of a
timestamp (R105, R106) and of a frame (R115), the sequencer's symbol (42_frame_sequencer.md R160), the encoder half's
`sym_in`, the receiver's sample. -/

namespace Sys2Proof.Machine

/-- A marker position (R101). -/
def isMarker (i : Nat) : Bool := i == 0 || i % 10 == 9

/-- The digits in frame order (R102). -/
def digits : List Digit := [.secU, .secT, .minU, .minT, .hrU, .hrT, .dayU, .dayT, .dayH, .yrU, .yrT]

/-- The first frame index of a digit (R102, column "start s"). -/
def digitStart : Digit → Nat
  | .secU => 1
  | .secT => 6
  | .minU => 10
  | .minT => 15
  | .hrU => 20
  | .hrT => 25
  | .dayU => 30
  | .dayT => 35
  | .dayH => 40
  | .yrU => 50
  | .yrT => 55

/-- The width of a digit in bits (R102, column "width w"). -/
def digitWidth : Digit → Nat
  | .secU => 4
  | .secT => 3
  | .minU => 4
  | .minT => 3
  | .hrU => 4
  | .hrT => 2
  | .dayU => 4
  | .dayT => 4
  | .dayH => 2
  | .yrU => 4
  | .yrT => 4

/-- The weight of position `k` of a digit, the most significant bit first (R103, 20_memory.md R53). -/
def digitWeight (d : Digit) (k : Nat) : Nat := 2 ^ (digitWidth d - 1 - k)

/-- The digit and weight a data position carries (R103); `none` at every other position. -/
def dataAt (i : Nat) : Option (Digit × Nat) :=
  (digits.find? fun d => digitStart d ≤ i && i < digitStart d + digitWidth d).map fun d =>
    (d, digitWeight d (i - digitStart d))

/-- A forced-zero position (R104). -/
def isForcedZero (i : Nat) : Bool := !isMarker i && (dataAt i).isNone

/-- The decimal digits of a timestamp (R105), the year as an offset from 2000 (R106). -/
def digitOf (t : Timestamp) : Digit → Nat
  | .secU => t.sec % 10
  | .secT => t.sec / 10
  | .minU => t.min % 10
  | .minT => t.min / 10
  | .hrU => t.hr % 10
  | .hrT => t.hr / 10
  | .dayU => t.day % 10
  | .dayT => t.day / 10 % 10
  | .dayH => t.day / 100
  | .yrU => (t.year - 2000) % 10
  | .yrT => (t.year - 2000) / 10

/-- The digit of a frame (R115): the sum of the weights of its positions that hold One. -/
def readDigit (frame : List SymCode) (d : Digit) : Nat :=
  ((List.range (digitWidth d)).map fun k =>
    if frame.getD (digitStart d + k) 0 = Symbol.one.code then digitWeight d k else 0).sum

/-- SYM (42_frame_sequencer.md R160): a function of the sequencer's registers only. -/
def symbolOf (q : SeqRegs) : Symbol :=
  if isMarker q.index then .marker
  else if q.buf.getLsbD q.index then .one
  else .zero

/-- The level `rx_sample` has in a cycle (R89: a `LOOP` line takes the `level` output). -/
def sampleLevel (s : State) : Sample → Bool
  | .high => true
  | .low => false
  | .txLevel => s.enc.level

end Sys2Proof.Machine
end

