-- ==== Sys2Proof/Machine/Flags.lean ====
section
/-! DEFINITION. The comparisons and flags: the duty function (41_symbol_encoder.md R141), the classifier
(43_demodulator.md R201), the `last` bits (30_encoding.md R83, R84), the gated outputs (R147, R167), the checks of
ENCODE and DECODE (40_codec.md R107, R108, R112 to R117), and the outputs of the clocked blocks. -/

namespace Sys2Proof.Machine

/-- HIGH(sym, c) for pulse length P (R141). -/
def high (P : Nat) (sym : Symbol) (c : Nat) : Bool :=
  match sym with
  | .zero => decide (5 * c < P)
  | .one => decide (2 * c < P)
  | .marker => decide (5 * c < 4 * P)

/-- h(sym), the number of high ticks of a bit period (R142), counted. -/
def highTicks (P : Nat) (sym : Symbol) : Nat := (List.range P).countP fun c => high P sym c

/-- CLASSIFY(c) for pulse length P (R201); `none` is noise. -/
def classify (P c : Nat) : Option Symbol :=
  if 5 * c ≥ 4 * P then some .marker
  else if 2 * c ≥ P then some .one
  else if 5 * c ≥ P then some .zero
  else none

/-- The `last` bit of the encoder half (R83). -/
def encLast (c : Config) (e : EncRegs) : Bool := e.cnt == c.P - 1

/-- The `last` bit of the sequencer half (R84). -/
def seqLast (c : Config) (q : SeqRegs) : Bool := q.index == c.W - 1

/-- The `request` output (R147). -/
def requestOut (e : EncRegs) (rst en : Bool) : Bool := e.reqQ && en && !rst

/-- The `frame_latched` output (R167). -/
def frameLatchedOut (q : SeqRegs) (rst en : Bool) : Bool := q.flQ && en && !rst

/-- ENCODE's year check (40_codec.md R107). -/
def yearInRange (t : Timestamp) : Bool := 2000 ≤ t.year && t.year ≤ 2099

/-- The precondition on the four other fields (R108); also DECODE's range check (R117). -/
def fieldsInRange (t : Timestamp) : Bool := t.sec ≤ 59 && t.min ≤ 59 && t.hr ≤ 23 && 1 ≤ t.day && t.day ≤ 366

/-- DECODE's check of one position (R112, R113, R114). -/
def positionOk (i : Nat) (c : SymCode) : Bool :=
  if isMarker i then c == Symbol.marker.code
  else if (dataAt i).isSome then c == Symbol.zero.code || c == Symbol.one.code
  else c == Symbol.zero.code

/-- DECODE's check that every 4-bit digit is decimal (R116). -/
def digitsDecimal (frame : List SymCode) : Bool :=
  [Digit.secU, .minU, .hrU, .dayU, .dayT, .yrU, .yrT].all fun d => readDigit frame d ≤ 9

/-- The outputs of `irig_tx` in a cycle (30_encoding.md R80). -/
structure TxOut where
  level        : Bool
  frameLatched : Bool
  request      : Bool
  symbol       : SymCode
  dbgIndex     : Nat
  dbgPhase     : BitVec 2
  dbgCnt       : Nat
deriving DecidableEq, Repr

/-- R171, "outputs during the cycle". -/
def txOut (s : State) (rst en : Bool) : TxOut :=
  { level := s.enc.level
    frameLatched := frameLatchedOut s.seq rst en
    request := requestOut s.enc rst en
    symbol := (symbolOf s.seq).code
    dbgIndex := s.seq.index
    dbgPhase := s.seq.phase.code
    dbgCnt := s.enc.cnt }

/-- The outputs of `irig_rx` (30_encoding.md R81), all of them registers. -/
structure RxOut where
  done    : Bool
  status  : BitVec 3
  ts      : TsWord
  rxFrame : BitVec 200
  dbgRxN  : Nat
deriving DecidableEq, Repr

def rxOut (s : State) : RxOut :=
  { done := s.rx.done
    status := s.rx.status.code
    ts := s.rx.ts
    rxFrame := symbolVector s.rx.syms
    dbgRxN := s.rx.n }

end Sys2Proof.Machine
end

