-- ==== Sys2Proof/Machine/Ops.lean ====
section
/-! DEFINITION. The operations that several meanings share: writing one part of the state; one edge of a half or of the receiver, refused while the
block is unreset (70_reset_and_hazards.md R261); reading `sym_in`; raising an error (60_exceptions.md R231). -/

namespace Sys2Proof.Machine

/-- Write the encoder half's registers. -/
def State.setEnc (s : State) (e : EncRegs) : State := { s with enc := e }

/-- Write the sequencer half's registers. -/
def State.setSeq (s : State) (q : SeqRegs) : State := { s with seq := q }

/-- Write the receiver's registers. -/
def State.setRx (s : State) (r : RxRegs) : State := { s with rx := r }

/-- Drive the input ports. -/
def State.setPorts (s : State) (p : Ports) : State := { s with ports := p }

/-- Drive the output ports of `tfc_enc`. -/
def State.setEncOut (s : State) (o : EncPort) : State := { s with encOut := o }

/-- Drive the output ports of `tfc_dec`. -/
def State.setDecOut (s : State) (o : DecPort) : State := { s with decOut := o }

/-- Replace the stimulus the host has yet to apply. -/
def State.setStimulus (s : State) (ls : List Line) : State := { s with stimulus := ls }

/-- What a step and a meaning answer. -/
abbrev Result := Host.Outcome State Fault Refusal

/-- The second action on the state the first answers; a stop stays a stop. -/
def andThen (r : Result) (k : State → Result) : Result :=
  match r with
  | .next s => k s
  | .fault f => .fault f
  | .refused q => .refused q

/-- A non-reset edge of the encoder half (R261). -/
def encEdge (s : State) (f : EncRegs → EncRegs) : Result :=
  if s.enc.live then .next (s.setEnc (f s.enc)) else .refused .unresetTransmitter

/-- A non-reset edge of the sequencer half (R261). -/
def seqEdge (s : State) (f : SeqRegs → SeqRegs) : Result :=
  if s.seq.live then .next (s.setSeq (f s.seq)) else .refused .unresetTransmitter

/-- A non-reset edge of the receiver (R261). -/
def rxEdge (s : State) (f : RxRegs → RxRegs) : Result :=
  if s.rx.live then .next (s.setRx (f s.rx)) else .refused .unresetReceiver

/-- An enabled edge of the encoder half: `f` gets the symbol on `sym_in`; code 0b11 has no meaning
(41_symbol_encoder.md R148). -/
def encEnabledEdge (s : State) (f : Symbol → EncRegs → EncRegs) : Result :=
  match Symbol.ofCode s.ports.symIn with
  | some sym => encEdge s (f sym)
  | none => if s.enc.live then .refused .symbolCode3 else .refused .unresetTransmitter

/-- Taking an error in the receiver (R231): the status register takes the code, the timestamp becomes zero and the
call is done. Nothing is saved and control goes nowhere (R239); there is no return (R240). -/
def raiseRx (e : Status) (r : RxRegs) : RxRegs := { r with status := e, ts := 0, done := true }

/-- Raising an error in `tfc_enc` (R231, 40_codec.md R120): every data output is zero. -/
def raiseEncode (W : Nat) (e : Status) : EncPort := ⟨0, List.replicate W Symbol.zero.code, e⟩

/-- Raising an error in `tfc_dec` (R231, 40_codec.md R120). -/
def raiseDecode (e : Status) : DecPort := ⟨0, e⟩

end Sys2Proof.Machine
end

