-- ==== Sys2Proof/Machine/Codec.lean ====
section
/-! DEFINITION. The BCD time-frame codec: ENCODE (40_codec.md R100) and DECODE (R110). -/

namespace Sys2Proof.Machine

/-- The symbol ENCODE puts at frame index `i` (R101, R103, R104). -/
def encodeSymbol (t : Timestamp) (i : Nat) : Symbol :=
  if isMarker i then .marker
  else
    match dataAt i with
    | some (d, wt) => if digitOf t d / wt % 2 = 1 then .one else .zero
    | none => .zero

/-- The frame of a timestamp, index 0 first (R100; R109 for W = 60). -/
def frameOf (W : Nat) (t : Timestamp) : List Symbol := (List.range W).map (encodeSymbol t)

/-- ENCODE of a timestamp word: the outputs of `tfc_enc`, or `none` where the spec refuses (R108). The year check
comes first (60_exceptions.md R238). -/
def encodeWord (W : Nat) (w : TsWord) : Option EncPort :=
  let t := Timestamp.ofWord w
  if !yearInRange t then some (raiseEncode W .invalidYear)
  else if fieldsInRange t then
    some ⟨payloadOf (frameOf W t), (frameOf W t).map Symbol.code, .ok⟩
  else none

/-- The timestamp a frame's digits spell (R110, R118). -/
def timestampOf (frame : List SymCode) : Timestamp :=
  let d := readDigit frame
  { sec := 10 * d .secT + d .secU
    min := 10 * d .minT + d .minU
    hr := 10 * d .hrT + d .hrU
    day := 100 * d .dayH + 10 * d .dayT + d .dayU
    year := 2000 + 10 * d .yrT + d .yrU }

/-- DECODE of a frame (R110): the checks R111 to R117 all give the same code. -/
def decodeFrame (W : Nat) (frame : List SymCode) : DecPort :=
  if frame.length ≠ W then raiseDecode .malformedFrame
  else if !(List.range W).all fun i => positionOk i (frame.getD i 0) then raiseDecode .malformedFrame
  else if !digitsDecimal frame then raiseDecode .malformedFrame
  else if !fieldsInRange (timestampOf frame) then raiseDecode .malformedFrame
  else ⟨(timestampOf frame).toWord, .ok⟩

/-- ENCODE (R100): the outputs of `tfc_enc` follow its input; no register changes (10_state.md R20). -/
def execEncode (s : State) : Result :=
  match encodeWord s.cfg.W s.ports.tsIn with
  | some out => .next (s.setEncOut out)
  | none => .refused .encodeFieldOutOfRange

/-- DECODE (R110): the outputs of `tfc_dec` follow its input; no register changes (10_state.md R20). -/
def execDecode (s : State) : Result :=
  .next (s.setDecOut (decodeFrame s.cfg.W s.ports.frameIn))

end Sys2Proof.Machine
end

