-- ==== Sys2Proof/Machine/Encoder.lean ====
section
/-! DEFINITION. The pulse-width symbol encoder, one half of `irig_tx` (41_symbol_encoder.md). -/

namespace Sys2Proof.Machine

/-- ENC_RESET (R143): also the edge after which the half is no longer unreset (70_reset_and_hazards.md R261). -/
def execEncReset (s : State) : Result :=
  .next (s.setEnc { live := true, cnt := 0, level := false, reqQ := false })

/-- ENC_HOLD (R144): no register is assigned. -/
def execEncHold (s : State) : Result := encEdge s fun e => e

/-- ENC_TICK (R145). -/
def execEncTick (s : State) : Result :=
  encEnabledEdge s fun sym e =>
    { e with level := high s.cfg.P sym e.cnt, reqQ := false, cnt := e.cnt + 1 }

/-- ENC_TICK_LAST (R146). -/
def execEncTickLast (s : State) : Result :=
  encEnabledEdge s fun sym e =>
    { e with level := high s.cfg.P sym (s.cfg.P - 1), reqQ := true, cnt := 0 }

end Sys2Proof.Machine
end

