-- ==== Sys2Proof/Machine/Receiver.lean ====
section
/-! DEFINITION. The pulse-width demodulator `irig_rx` (43_demodulator.md). -/

namespace Sys2Proof.Machine

/-- RX_RESET (R202): also the edge after which the receiver is no longer unreset (70_reset_and_hazards.md R261). -/
def execRxReset (s : State) : Result :=
  .next (s.setRx
    { live := true, prev := false, cnt := 0, n := 0, syms := List.replicate s.cfg.W Symbol.zero.code
      done := false, status := .ok, ts := 0 })

/-- RX_DONE_HOLD (R203): no register is assigned. -/
def execRxDoneHold (s : State) : Result := rxEdge s fun r => r

/-- RX_END (R204): the stream ended early. -/
def execRxEnd (s : State) : Result := rxEdge s fun r => raiseRx .incompleteFrame r

/-- RX_IDLE (R205): no register is assigned. -/
def execRxIdle (s : State) : Result := rxEdge s fun r => r

/-- RX_HIGH (R206): the counter saturates at P. -/
def execRxHigh (s : State) : Result :=
  rxEdge s fun r => { r with cnt := min (r.cnt + 1) s.cfg.P, prev := true }

/-- RX_LOW (R207). -/
def execRxLow (s : State) : Result := rxEdge s fun r => { r with prev := false }

/-- Appending a classified symbol (R208): element `rx_n` and the count; at the W-th symbol the result of DECODE of
the new vector. A failed DECODE gives status MalformedFrame and a zero timestamp (40_codec.md R120). -/
def appendSymbol (W : Nat) (sym : Symbol) (r : RxRegs) : RxRegs :=
  let syms := r.syms.set r.n sym.code
  let r' := { r with syms := syms, n := r.n + 1 }
  if r.n + 1 = W then
    let result := decodeFrame W syms
    { r' with done := true, status := result.status, ts := result.ts }
  else r'

/-- RX_FALL (R208): classify the pulse; noise changes nothing else (R213). -/
def execRxFall (s : State) : Result :=
  rxEdge s fun r =>
    let r' := { r with cnt := 0, prev := false }
    match classify s.cfg.P r.cnt with
    | some sym => appendSymbol s.cfg.W sym r'
    | none => r'

end Sys2Proof.Machine
end

