-- ==== Sys2Proof/Machine/Reserved.lean ====
section
/-! DEFINITION. The vectors whose block id names no block (30_encoding.md R88: "A model refuses both kinds"). -/

namespace Sys2Proof.Machine

/-- Block id 0b101. -/
def execReservedBlock5 (_ : State) : Result := .refused .reservedBlock

/-- Block id 0b110. -/
def execReservedBlock6 (_ : State) : Result := .refused .reservedBlock

/-- Block id 0b111. -/
def execReservedBlock7 (_ : State) : Result := .refused .reservedBlock

end Sys2Proof.Machine
end

