-- ==== Sys2Proof/Machine/Sequencer.lean ====
section
/-! DEFINITION. The frame sequencer, the other half of `irig_tx` (42_frame_sequencer.md). -/

namespace Sys2Proof.Machine

/-- SEQ_RESET (R161): also the edge after which the half is no longer unreset (70_reset_and_hazards.md R261). -/
def execSeqReset (s : State) : Result :=
  .next (s.setSeq { live := true, phase := .await, index := 0, buf := 0, flQ := false })

/-- SEQ_HOLD (R162): no register is assigned. -/
def execSeqHold (s : State) : Result := seqEdge s fun q => q

/-- SEQ_AWAIT_IDLE (R163). -/
def execSeqAwaitIdle (s : State) : Result :=
  seqEdge s fun q => { q with index := 0, flQ := false }

/-- SEQ_AWAIT_REQ (R164). -/
def execSeqAwaitReq (s : State) : Result :=
  seqEdge s fun q => { q with phase := .latch, index := 0, flQ := false }

/-- SEQ_LATCH_FIRST (R165): all W bits of `pending_frame` at this edge (20_memory.md R58). -/
def execSeqLatchFirst (s : State) : Result :=
  seqEdge s fun q =>
    { q with buf := wires s.cfg.W s.ports.pendingFrame, flQ := true, index := 0, phase := .stream }

/-- SEQ_STREAM_IDLE (R166). -/
def execSeqStreamIdle (s : State) : Result := seqEdge s fun q => { q with flQ := false }

/-- SEQ_STREAM_ADVANCE (R168). -/
def execSeqStreamAdvance (s : State) : Result :=
  seqEdge s fun q => { q with index := q.index + 1, flQ := false }

/-- SEQ_STREAM_WRAP (R169). -/
def execSeqStreamWrap (s : State) : Result :=
  seqEdge s fun q =>
    { q with index := 0, buf := wires s.cfg.W s.ports.pendingFrame, flQ := true }

/-- The sequencer vector of phase 0b11 at an enabled edge (R170: "A model refuses such a step: it gives it no next
state"; 30_encoding.md R88). -/
def execSeqReservedPhase3 (s : State) : Result :=
  if s.seq.live then .refused .sequencerPhase3 else .refused .unresetTransmitter

end Sys2Proof.Machine
end

