-- ==== Sys2Proof/Machine/Dispatch.lean ====
section
/-! DEFINITION. One arm per constructor of Instr. The operands of an instruction are control bits its row ignores
(30_encoding.md section 3), so no meaning takes one. -/

namespace Sys2Proof.Machine

def exec (i : Instr) (s : State) : Host.Outcome State Fault Refusal :=
  match i with
  -- tfc_enc, tfc_dec
  | .encode _ => Sys2Proof.Machine.execEncode s
  | .decode _ => Sys2Proof.Machine.execDecode s
  -- irig_tx, symbol-encoder half
  | .encReset _ _ _ => Sys2Proof.Machine.execEncReset s
  | .encHold _ _ => Sys2Proof.Machine.execEncHold s
  | .encTick _ => Sys2Proof.Machine.execEncTick s
  | .encTickLast _ => Sys2Proof.Machine.execEncTickLast s
  -- irig_tx, frame-sequencer half
  | .seqReset _ _ _ _ => Sys2Proof.Machine.execSeqReset s
  | .seqHold _ _ _ => Sys2Proof.Machine.execSeqHold s
  | .seqAwaitIdle _ => Sys2Proof.Machine.execSeqAwaitIdle s
  | .seqAwaitReq _ => Sys2Proof.Machine.execSeqAwaitReq s
  | .seqLatchFirst _ _ => Sys2Proof.Machine.execSeqLatchFirst s
  | .seqStreamIdle _ => Sys2Proof.Machine.execSeqStreamIdle s
  | .seqStreamAdvance => Sys2Proof.Machine.execSeqStreamAdvance s
  | .seqStreamWrap => Sys2Proof.Machine.execSeqStreamWrap s
  | .seqReservedPhase3 _ _ => Sys2Proof.Machine.execSeqReservedPhase3 s
  -- irig_rx
  | .rxReset _ _ _ _ _ => Sys2Proof.Machine.execRxReset s
  | .rxDoneHold _ _ _ _ => Sys2Proof.Machine.execRxDoneHold s
  | .rxEnd _ _ _ => Sys2Proof.Machine.execRxEnd s
  | .rxIdle _ _ => Sys2Proof.Machine.execRxIdle s
  | .rxHigh _ => Sys2Proof.Machine.execRxHigh s
  | .rxLow => Sys2Proof.Machine.execRxLow s
  | .rxFall => Sys2Proof.Machine.execRxFall s
  -- no block
  | .reservedBlock5 _ => Sys2Proof.Machine.execReservedBlock5 s
  | .reservedBlock6 _ => Sys2Proof.Machine.execReservedBlock6 s
  | .reservedBlock7 _ => Sys2Proof.Machine.execReservedBlock7 s

end Sys2Proof.Machine
end

