-- ==== Sys2Proof/Machine/Fetch.lean ====
section
/-! DEFINITION. How an edge selects its operations: the stimulus line sets the input ports, then each driven block
forms its operation vector from its inputs and its pre-edge registers (30_encoding.md R82 to R86). -/

namespace Sys2Proof.Machine

/-- The encoder half's vector (R83). -/
def encVector (c : Config) (e : EncRegs) (rst en : Bool) (spare : BitVec 3) : OpVector :=
  (0b010 : BitVec 3) ++ spare ++ BitVec.ofBool (encLast c e) ++ BitVec.ofBool en ++ BitVec.ofBool rst

/-- The sequencer half's vector (R84). -/
def seqVector (c : Config) (q : SeqRegs) (rst en req : Bool) : OpVector :=
  (0b011 : BitVec 3) ++ BitVec.ofBool (seqLast c q) ++ q.phase.code ++ BitVec.ofBool req ++ BitVec.ofBool en
    ++ BitVec.ofBool rst

/-- The receiver's vector (R85). -/
def rxVector (r : RxRegs) (rst valid sample ended : Bool) : OpVector :=
  (0b100 : BitVec 3) ++ BitVec.ofBool r.prev ++ BitVec.ofBool sample ++ BitVec.ofBool valid ++ BitVec.ofBool ended
    ++ BitVec.ofBool r.done ++ BitVec.ofBool rst

/-- The vector of a block driven alone: the line's bits, but that the control bits which are registers (`last`,
`phase`, `done`, `prev`) come from the registers. -/
def aloneVector (s : State) (v : Nat) : Nat :=
  if v < 512 then
    let b : OpVector := BitVec.ofNat 9 v
    match b.getLsbD 8, b.getLsbD 7, b.getLsbD 6 with
    | false, true, false => (encVector s.cfg s.enc (b.getLsbD 0) (b.getLsbD 1) (b.extractLsb' 3 3)).toNat
    | false, true, true => (seqVector s.cfg s.seq (b.getLsbD 0) (b.getLsbD 1) (b.getLsbD 2)).toNat
    | true, false, false => (rxVector s.rx (b.getLsbD 0) (b.getLsbD 3) (b.getLsbD 4) (b.getLsbD 2)).toNat
    | _, _, _ => v
  else v

/-- The inputs a line presents, before its edge: the caller's `pending_frame` (R89 `TX.PEND`), the codec inputs, and
`sym_in`, which is the sequencer's `symbol` unless the encoder half is driven alone with another
(41_symbol_encoder.md R140). While the sequencer half is unreset that is the symbol of its undefined registers: DESIGN
CHOICE, log 27. -/
def present (l : Line) (s : State) : State :=
  match l with
  | .edge tx _ =>
    s.setPorts
      { s.ports with
        pendingFrame := (tx.bind fun d => d.pend).getD s.ports.pendingFrame
        symIn := (symbolOf s.seq).code }
  | .enc ts => s.setPorts { s.ports with tsIn := ts }
  | .dec frame => s.setPorts { s.ports with frameIn := frame }
  | .alone _ sym => s.setPorts { s.ports with symIn := sym.getD (symbolOf s.seq).code }

/-- The vectors `irig_tx` forms at one edge: encoder half, then sequencer half with the gated `request` of the same
cycle (R84, 41_symbol_encoder.md R147). -/
def txVectors (s : State) (d : TxDrive) : List Nat :=
  [(encVector s.cfg s.enc d.rst d.en 0).toNat,
   (seqVector s.cfg s.seq d.rst d.en (requestOut s.enc d.rst d.en)).toNat]

/-- The vector `irig_rx` forms at one edge. -/
def rxVectors (s : State) (d : RxDrive) : List Nat :=
  [(rxVector s.rx d.rst d.valid (sampleLevel s d.sample) d.ended).toNat]

/-- All the vectors of a line, from the pre-edge state (00_scope.md R4). A codec line is no edge for the clocked
blocks: DESIGN CHOICE, log 23. -/
def lineVectors (s : State) : Line → List Nat
  | .edge tx rx => (tx.elim [] (txVectors s)) ++ (rx.elim [] (rxVectors s))
  | .enc _ => [0x000]
  | .dec _ => [0x040]
  | .alone v _ => [aloneVector s v]

/-- The encoder half with its `last` bit as wanted; `cnt` changes only if it must. -/
def setEncLast (c : Config) (last : Bool) (e : EncRegs) : EncRegs :=
  if encLast c e = last then e
  else { e with cnt := if last then c.P - 1 else if c.P = 1 then 1 else 0 }

/-- The sequencer half with its phase and `last` bits as wanted; `index` changes only if it must. -/
def setSeqBits (c : Config) (phase : BitVec 2) (last : Bool) (q : SeqRegs) : SeqRegs :=
  let q' := { q with phase := Phase.ofCode phase }
  if seqLast c q = last then q' else { q' with index := if last then c.W - 1 else 0 }

/-- The registers whose bits the vector of a block holds, set so that the block forms the vector `v`. -/
def withVectorBits (v : Nat) (s : State) : State :=
  if v < 512 then
    let b : OpVector := BitVec.ofNat 9 v
    match b.getLsbD 8, b.getLsbD 7, b.getLsbD 6 with
    | false, true, false => s.setEnc (setEncLast s.cfg (b.getLsbD 2) s.enc)
    | false, true, true => s.setSeq (setSeqBits s.cfg (b.extractLsb' 3 2) (b.getLsbD 5) s.seq)
    | true, false, false => s.setRx { s.rx with done := b.getLsbD 1, prev := b.getLsbD 5 }
    | _, _, _ => s
  else s

end Sys2Proof.Machine
end

