-- ==== Sys2Proof/Machine/Edge.lean ====
section
/-! DEFINITION. One line of stimulus applied: its inputs presented, its vectors formed from the pre-edge state, the
operations they select run one after another (00_scope.md R4, log 5). -/

namespace Sys2Proof.Machine

/-- Run the operation a vector selects. -/
def runVector (w : Nat) (s : State) : Result :=
  match decodeNat w with
  | .ok i => exec i s
  | .error _ => .refused .notAnOperationVector

/-- Run the operations of one edge. Encoder, sequencer and receiver operations each write their own registers only,
and none reads a register an earlier one writes, so the order is not seen. -/
def runVectors : List Nat → State → Result
  | [], s => .next s
  | w :: ws, s => andThen (runVector w s) (runVectors ws)

/-- One line of stimulus. -/
def applyLine (l : Line) (s : State) : Result :=
  runVectors (lineVectors (present l s) l) (present l s)

end Sys2Proof.Machine
end

