-- ==== Sys2Proof/Machine/Step.lean ====
section
/-! DEFINITION. One step of the machine: the next line of stimulus. -/

namespace Sys2Proof.Machine

/-- One step. With no line left there is no edge, and nothing changes (60_exceptions.md R245; log 6). -/
def step (s : State) : Host.Outcome State Fault Refusal :=
  match s.stimulus with
  | [] => .next s
  | l :: rest => applyLine l (s.setStimulus rest)

/-- The state in which the next step runs exactly the operation of vector `w`: a line that drives the vector's block
alone, and the registers whose bits are part of the vector (log 7). -/
def State.withFetchWord (s : State) (_nbits w : Nat) : State :=
  (withVectorBits w s).setStimulus (.alone w none :: s.stimulus)

end Sys2Proof.Machine
end

