-- ==== Sys2Proof/Machine/Stimulus.lean ====
section
/-! DEFINITION. The stimulus mnemonics (30_encoding.md R89) and pseudo-instructions (R90), as the lines they stand
for. -/

namespace Sys2Proof.Machine

/-- `TX.RST`. -/
def txRst : TxDrive := { rst := true, en := true, pend := none }

/-- `TX.TICK`. -/
def txTick : TxDrive := { rst := false, en := true, pend := none }

/-- `TX.HOLD`. -/
def txHold : TxDrive := { rst := false, en := false, pend := none }

/-- The prefix `TX.PEND <frame>`: marker characters give bit 0. A frame of other than W symbols, which R74 does not know,
is taken too, its missing bits 0: DESIGN CHOICE, log 29. -/
def txPend (frame : List Symbol) (d : TxDrive) : TxDrive := { d with pend := some (payloadOf frame) }

/-- `RX.RST`. `rx_sample` is driven 0, which R89 leaves open: DESIGN CHOICE, log 25. -/
def rxRst : RxDrive := { rst := true, valid := false, sample := .low, ended := false }

/-- `RX.S0`. -/
def rxS0 : RxDrive := { rst := false, valid := true, sample := .low, ended := false }

/-- `RX.S1`. -/
def rxS1 : RxDrive := { rst := false, valid := true, sample := .high, ended := false }

/-- `RX.IDLE`. `rx_sample` as in `RX.RST`: log 25. -/
def rxIdle : RxDrive := { rst := false, valid := false, sample := .low, ended := false }

/-- `RX.END`. `rx_sample` as in `RX.RST`: log 25. -/
def rxEnd : RxDrive := { rst := false, valid := false, sample := .low, ended := true }

/-- A line of TX and RX mnemonics for a set-up with both blocks: "A block the line does not name gets `TX.HOLD` or
`RX.IDLE`" (R89). -/
def bothBlocks (tx : Option TxDrive) (rx : Option RxDrive) : Line :=
  .edge (some (tx.getD txHold)) (some (rx.getD rxIdle))

/-- A line for a set-up with `irig_tx` only. -/
def txOnly (d : TxDrive) : Line := .edge (some d) none

/-- A line for a set-up with `irig_rx` only. -/
def rxOnly (d : RxDrive) : Line := .edge none (some d)

/-- `LOOP`: the receiver takes the `level` output of `irig_tx` in the same cycle. -/
def loopLine : Line := .edge (some txTick) (some { rxS0 with sample := .txLevel })

/-- `ENC (s,m,h,d,y)`. A timestamp with a field that its bits on the port (R75) cannot hold has no line: DESIGN
CHOICE, log 22. -/
def encLine (t : Timestamp) : Option Line :=
  if t.sec < 64 ∧ t.min < 64 ∧ t.hr < 32 ∧ t.day < 512 ∧ t.year < 4096 then some (.enc t.toWord) else none

/-- `DEC <frame>`. -/
def decLine (frame : List Symbol) : Line := .dec (frame.map Symbol.code)

/-- `<line> *n` (R90). -/
def times (n : Nat) (l : Line) : List Line := List.replicate n l

/-- `TX.FRAME` (R90): W·P ticks, in a set-up with `irig_tx` only (DESIGN CHOICE, log 26). -/
def txFrame (c : Config) : List Line := times (c.W * c.P) (txOnly txTick)

/-- `RX.PULSE <sym>` (R90): h(sym) high samples, then P - h(sym) low ones, in a set-up with `irig_rx` only (DESIGN
CHOICE, log 26). -/
def rxPulse (P : Nat) (sym : Symbol) : List Line :=
  times (highTicks P sym) (rxOnly rxS1) ++ times (P - highTicks P sym) (rxOnly rxS0)

/-- `RX.STREAM <frame>` (R90): the pulse of each symbol in order, in a set-up with `irig_rx` only (log 26). -/
def rxStream (P : Nat) (frame : List Symbol) : List Line := frame.flatMap (rxPulse P)

end Sys2Proof.Machine
end

