-- ==== Sys2Proof/Safety.lean ====
section
/-! DEFINITION. What statements are phrased in: the invariants of 10_state.md R40, the host duties that keep a step
from being refused (60_exceptions.md R246), the transmitter step as 42_frame_sequencer.md R171 prints it, and runs of
stimulus lines. -/

namespace Sys2Proof.Machine

/-- R40, encoder half: `cnt` < P. A pending request token is one tick old (41_symbol_encoder.md R145, R146). -/
structure EncRegs.Inv (c : Config) (e : EncRegs) : Prop where
  cnt_lt : e.cnt < c.P
  token_fresh : e.reqQ = true → e.cnt = 0

/-- R40, sequencer half. The last two clauses are the width of `buf` (10_state.md R26) and where `fl_q` is set
(42_frame_sequencer.md R165, R169). -/
structure SeqRegs.Inv (c : Config) (q : SeqRegs) : Prop where
  phase_named : q.phase ≠ .code3
  index_lt : q.index < c.W
  index_zero : q.phase ≠ .stream → q.index = 0
  await_unlatched : q.phase = .await → q.flQ = false
  buf_wires : wires c.W q.buf = q.buf
  latched_fresh : q.flQ = true → q.phase = .stream ∧ q.index = 0

/-- R40, receiver; with the length of `rx_syms` (10_state.md R31), its codes (30_encoding.md R71) and the zero
timestamp of an error (43_demodulator.md R212). -/
structure RxRegs.Inv (c : Config) (r : RxRegs) : Prop where
  cnt_le : r.cnt ≤ c.P
  low_zero : r.prev = false → r.cnt = 0
  n_le : r.n ≤ c.W
  full_done : r.n = c.W → r.done = true
  done_cases : r.done = true →
    (r.n = c.W ∧ (r.status = .ok ∨ r.status = .malformedFrame)) ∨ (r.n < c.W ∧ r.status = .incompleteFrame)
  running : r.done = false → r.status = .ok ∧ r.ts = 0
  error_ts : r.status ≠ .ok → r.ts = 0
  syms_length : r.syms.length = c.W
  syms_rest : ∀ i, r.n ≤ i → r.syms.getD i 0 = Symbol.zero.code
  syms_codes : ∀ x ∈ r.syms, x ≠ 0b11

/-- The invariants of every state reached from a reset edge (R40); an unreset block's registers hold anything. -/
structure State.Inv (s : State) : Prop where
  enc : s.enc.live = true → s.enc.Inv s.cfg
  seq : s.seq.live = true → s.seq.Inv s.cfg
  rx : s.rx.live = true → s.rx.Inv s.cfg

/-- Host duties H1 and H4 for the next line (R246), and that a line drives a block of the CORE with symbols that have
a meaning: what keeps its step from being one of the refusals of R230. -/
def State.accepts (s : State) : Line → Prop
  | .edge tx rx =>
    (∀ d, tx = some d → d.rst = true ∨ (s.enc.live = true ∧ s.seq.live = true)) ∧
    (∀ d, rx = some d → d.rst = true ∨ s.rx.live = true)
  | .enc ts => yearInRange (Timestamp.ofWord ts) = false ∨ fieldsInRange (Timestamp.ofWord ts) = true
  | .dec _ => True
  | .alone v sym =>
    v < 320 ∧ s.enc.live = true ∧ s.seq.live = true ∧ s.rx.live = true ∧ sym ≠ some 0b11 ∧
      (64 ≤ v ∨ yearInRange (Timestamp.ofWord s.ports.tsIn) = false ∨
        fieldsInRange (Timestamp.ofWord s.ports.tsIn) = true)

/-- The two halves of `irig_tx` after one edge, as the pseudocode of R171 says it; `none` is its "refuse". -/
def txStep (c : Config) (rst en : Bool) (pending : Payload) (e : EncRegs) (q : SeqRegs) :
    Option (EncRegs × SeqRegs) :=
  if rst then some (⟨true, 0, false, false⟩, ⟨true, .await, 0, 0, false⟩)
  else if !en then some (e, q)
  else
    let e' : EncRegs :=
      { e with
        level := high c.P (symbolOf q) e.cnt
        reqQ := decide (e.cnt = c.P - 1)
        cnt := (e.cnt + 1) % c.P }
    let req := e.reqQ
    match q.phase with
    | .await => some (e', { q with index := 0, flQ := false, phase := if req then .latch else .await })
    | .latch => some (e', { q with buf := wires c.W pending, flQ := true, index := 0, phase := .stream })
    | .stream =>
      if !req then some (e', { q with flQ := false })
      else if q.index ≠ c.W - 1 then some (e', { q with index := q.index + 1, flQ := false })
      else some (e', { q with index := 0, buf := wires c.W pending, flQ := true })
    | .code3 => none

/-- A run of stimulus lines, one step each, from a state whose own stimulus is put aside. -/
def runLines : List Line → State → Result
  | [], s => .next (s.setStimulus [])
  | l :: ls, s => andThen (step (s.setStimulus [l])) (runLines ls)

end Sys2Proof.Machine
end

