-- ==== Sys2Proof/Certificates/Slice0/Obligations.lean ====
section
/-! DEFINITION. The statements about the model. Each docstring names the rule or section of spec/ it formalises; where
a clause is the model's own choice it names the log entry. -/

open Sys2Proof Sys2Proof.Machine

/-! ### Encoding -/

/-- Vectors written out in 95_test_vectors.md sections 2.4 to 2.6 and 3 decode to the operations named there; a number
with a tenth bit is no vector (log 16). -/
def Obligations.SpecVectorsDecode : Prop :=
  decodeTableWord 16 0x000 = some (.encode 0) ∧
  decodeTableWord 16 0x07F = some (.decode 0b111111) ∧
  decodeTableWord 16 0x087 = some (.encReset true true 0) ∧
  decodeTableWord 16 0x084 = some (.encHold true 0) ∧
  decodeTableWord 16 0x082 = some (.encTick 0) ∧
  decodeTableWord 16 0x086 = some (.encTickLast 0) ∧
  decodeTableWord 16 0x0D3 = some (.seqReset true false 0b10 false) ∧
  decodeTableWord 16 0x0D0 = some (.seqHold false 0b10 false) ∧
  decodeTableWord 16 0x0C6 = some (.seqAwaitReq false) ∧
  decodeTableWord 16 0x0CA = some (.seqLatchFirst false false) ∧
  decodeTableWord 16 0x0F2 = some (.seqStreamIdle true) ∧
  decodeTableWord 16 0x0D6 = some .seqStreamAdvance ∧
  decodeTableWord 16 0x0F6 = some .seqStreamWrap ∧
  decodeTableWord 16 0x0DA = some (.seqReservedPhase3 false false) ∧
  decodeTableWord 16 0x103 = some (.rxReset true false false false false) ∧
  decodeTableWord 16 0x13C = some (.rxEnd true true true) ∧
  decodeTableWord 16 0x120 = some (.rxIdle false true) ∧
  decodeTableWord 16 0x138 = some (.rxHigh true) ∧
  decodeTableWord 16 0x108 = some .rxLow ∧
  decodeTableWord 16 0x128 = some .rxFall ∧
  decodeTableWord 16 0x140 = some (.reservedBlock5 0) ∧
  decodeTableWord 16 0x200 = none

/-- R87: every vector matches exactly one row of the opcode map, and it is the row of the operation the decoder
names; so the decoder is total and no two rows overlap. (The map's three reserved-block rows cover the other ids.) -/
def Obligations.EveryVectorMatchesExactlyItsRow : Prop :=
  ∀ v : OpVector, opTable.filter (fun r => r.matches v) = [(decodeVector v).row]

/-- Decoding the vector of any operation gives it back, every operand at every value (30_encoding.md R82 to R86). -/
def Obligations.DecodeOfEncodeIsIdentity : Prop :=
  ∀ i : Instr, decodeVector (encode i) = i ∧ decodeTableWord 16 (encode i).toNat = some i

/-- Encoding what a vector decodes to gives the vector: the operands keep every control bit. -/
def Obligations.EncodeOfDecodeIsIdentity : Prop :=
  ∀ v : OpVector, encode (decodeVector v) = v

/-- R88: both kinds of reserved vector are refused, and setting a control bit that R83 or R86 leaves unused changes
nothing. -/
def Obligations.ReservedVectorsRefusedAndSpareBitsIgnored : Prop :=
  (∀ ctl (s : State), exec (.reservedBlock5 ctl) s = .refused .reservedBlock) ∧
  (∀ ctl (s : State), exec (.reservedBlock6 ctl) s = .refused .reservedBlock) ∧
  (∀ ctl (s : State), exec (.reservedBlock7 ctl) s = .refused .reservedBlock) ∧
  (∀ req last (s : State), s.seq.live = true → exec (.seqReservedPhase3 req last) s = .refused .sequencerPhase3) ∧
  (∀ req last (s : State), ∃ r, exec (.seqReservedPhase3 req last) s = .refused r) ∧
  (∀ v w : OpVector, blockOf v = blockOf w → blockOf v = 0b000 ∨ blockOf v = 0b001 →
    ∀ (s : State), exec (decodeVector v) s = exec (decodeVector w) s) ∧
  (∀ v w : OpVector, blockOf v = 0b010 → blockOf w = 0b010 → v.extractLsb' 0 3 = w.extractLsb' 0 3 →
    ∀ (s : State), exec (decodeVector v) s = exec (decodeVector w) s)

/-- The codes of symbols (R70), phases (R77) and statuses (R76); 0b11 names no symbol (R71). -/
def Obligations.CodesAreThoseOfTheSpec : Prop :=
  (Symbol.zero.code = 0b00 ∧ Symbol.one.code = 0b01 ∧ Symbol.marker.code = 0b10) ∧
  (∀ c : SymCode, Symbol.ofCode c = none ↔ c = 0b11) ∧
  (Phase.await.code = 0b00 ∧ Phase.latch.code = 0b01 ∧ Phase.stream.code = 0b10) ∧
  (Status.ok.code = 0 ∧ Status.invalidYear.code = 1 ∧ Status.malformedFrame.code = 2 ∧
    Status.incompleteFrame.code = 3 ∧ Status.unknownVariant.code = 4)

/-! ### Steps -/

/-- A step whose line drives one block runs the decoded operation on the presented inputs (log 6, log 7); a number
that is no vector is refused (log 16); a codec line is exactly ENCODE or DECODE, and no edge of the clocked blocks, unreset
ones too (the model's choice, log 23); with no line nothing changes (log 6). -/
def Obligations.StepRunsTheDecodedOperation : Prop :=
  (∀ (s : State) v sym rest i, s.stimulus = .alone v sym :: rest →
    decodeNat (aloneVector (present (.alone v sym) (s.setStimulus rest)) v) = .ok i →
    step s = exec i (present (.alone v sym) (s.setStimulus rest))) ∧
  (∀ (s : State) v sym rest e, s.stimulus = .alone v sym :: rest →
    decodeNat (aloneVector (present (.alone v sym) (s.setStimulus rest)) v) = .error e →
    step s = .refused .notAnOperationVector) ∧
  (∀ (s : State) ts rest, s.stimulus = .enc ts :: rest →
    step s = exec (.encode 0) ((s.setStimulus rest).setPorts { s.ports with tsIn := ts })) ∧
  (∀ (s : State) frame rest, s.stimulus = .dec frame :: rest →
    step s = exec (.decode 0) ((s.setStimulus rest).setPorts { s.ports with frameIn := frame })) ∧
  (∀ (s : State), s.stimulus = [] → step s = .next s)

/-- A step whose line is an edge of both blocks runs, on the presented inputs, the encoder operation, then the
sequencer operation, then the receiver operation, all three selected by vectors of the pre-edge state (R82 to R85;
the order is log 5). -/
def Obligations.StepRunsTheOperationsOfAnEdge : Prop :=
  ∀ (s : State) d r rest, s.stimulus = .edge (some d) (some r) :: rest →
    step s =
      (let s₀ := present (.edge (some d) (some r)) (s.setStimulus rest)
       andThen (exec (decodeVector (encVector s₀.cfg s₀.enc d.rst d.en 0)) s₀) fun s₁ =>
       andThen (exec (decodeVector (seqVector s₀.cfg s₀.seq d.rst d.en (requestOut s₀.enc d.rst d.en))) s₁) fun s₂ =>
       exec (decodeVector (rxVector s₀.rx r.rst r.valid (sampleLevel s₀ r.sample) r.ended)) s₂)

/-- A table row's word, stored where the machine takes its next line, is the operation the next step runs (log 7). -/
def Obligations.FetchWordIsTheNextOperation : Prop :=
  ∀ (s : State) nbits w i, decodeTableWord nbits w = some i →
    step (s.withFetchWord nbits w) = exec i (present (.alone w none) (withVectorBits w s))

/-- R171, outputs and next state: with both halves out of "unreset" and `cnt` in its range, one edge of `irig_tx` is
the simultaneous step the rule prints, with `symbol`, `request` and `pending_frame` of the same cycle; where it says
refuse, the step is refused. Nothing else of the state changes but the input ports and the used-up line. -/
def Obligations.TransmitterEdgeIsTheSimultaneousStep : Prop :=
  ∀ (s : State) d rest, s.stimulus = txOnly d :: rest → s.enc.live = true → s.seq.live = true → s.enc.cnt < s.cfg.P →
    txOut s d.rst d.en =
      { level := s.enc.level
        frameLatched := s.seq.flQ && d.en && !d.rst
        request := s.enc.reqQ && d.en && !d.rst
        symbol := (symbolOf s.seq).code
        dbgIndex := s.seq.index
        dbgPhase := s.seq.phase.code
        dbgCnt := s.enc.cnt } ∧
    match txStep s.cfg d.rst d.en (d.pend.getD s.ports.pendingFrame) s.enc s.seq with
    | some (e, q) =>
      step s = .next ((((s.setStimulus rest).setPorts
        { s.ports with pendingFrame := d.pend.getD s.ports.pendingFrame, symIn := (symbolOf s.seq).code }).setEnc
          e).setSeq q)
    | none => step s = .refused .sequencerPhase3

/-- One edge of both blocks is an edge of each, taken from the same pre-edge state: `irig_rx` samples the `level`
that `irig_tx` shows before the edge (R4; 60_exceptions.md R243). -/
def Obligations.BlocksShareAnEdgeWithoutSeeingEachOther : Prop :=
  ∀ (s : State) d r t,
    step (s.setStimulus [.edge (some d) (some r)]) = .next t ↔
      ∃ a b,
        step (s.setStimulus [txOnly d]) = .next a ∧
        step (s.setStimulus [rxOnly { r with sample := if sampleLevel s r.sample then .high else .low }]) = .next b ∧
        t = a.setRx b.rx

/-! ### Invariants and safety -/

/-- The reset state of every instance satisfies the invariants, and so does power-on (R39, R40). -/
def Obligations.ResetSatisfiesTheInvariants : Prop :=
  (∀ c, (State.resetOf c).Inv) ∧ (∀ c, (State.powerOn c).Inv) ∧ State.reset.Inv

/-- R40: the invariants hold in every state reached from a reset edge: every step keeps them, whatever line it takes;
before a block's reset edge they claim nothing about it. -/
def Obligations.EveryStepKeepsTheInvariants : Prop :=
  ∀ (s : State) t, s.Inv → step s = .next t → t.Inv

/-- The configuration is fixed at elaboration (R12, R36): no step changes it. -/
def Obligations.NoStepChangesTheConfiguration : Prop :=
  ∀ (s : State) t, step s = .next t → t.cfg = s.cfg

/-- Elaboration (R6, R7, R12): exactly the legal requests build an instance, with the variant's W and the asked P.
That a bad name is answered whatever the width and P are is the model's choice (log 24); so is refusing the other legal
width (log 17). -/
def Obligations.ElaborationBuildsOnlyLegalInstances : Prop :=
  (∀ name w p, Variant.ofName name = none → Config.elaborate name w p = .error .unknownVariant) ∧
  (∀ name, Variant.ofName name = none ↔ name ≠ 'A' ∧ name ≠ 'B' ∧ name ≠ 'D' ∧ name ≠ 'E' ∧ name ≠ 'G' ∧ name ≠ 'H') ∧
  (∀ name v w p, Variant.ofName name = some v → (w = v.width ∧ 1 ≤ p) →
    ∃ c, Config.elaborate name w p = .ok c ∧ c.W = w ∧ (c.P : Int) = p) ∧
  (∀ name v w p, Variant.ofName name = some v → ¬(w = v.width ∧ 1 ≤ p) →
    ∃ e, Config.elaborate name w p = .error e ∧ e ≠ .unknownVariant) ∧
  (Variant.a.width = 100 ∧ Variant.b.width = 100 ∧ Variant.d.width = 60 ∧ Variant.e.width = 100 ∧
    Variant.g.width = 100 ∧ Variant.h.width = 60)

/-- Under the invariants and the host duties H1 and H4 no step is refused (R230, R236): every other input
combination has a next state. That a codec line goes on whatever state the clocked blocks are in (log 23), that an edge
line may drive one block (log 11) and that a block or half can be driven alone (log 7) are the model's choices. -/
def Obligations.AcceptedLinesAreNeverRefused : Prop :=
  ∀ (s : State) l rest, s.Inv → s.stimulus = l :: rest → (present l s).accepts l → ∃ t, step s = .next t

/-- The natural-number registers fit the widths of R11 in every state of the invariants, each block's as soon as
that block has been reset. -/
def Obligations.CountersFitTheirWidths : Prop :=
  ∀ (s : State), s.Inv →
    (s.enc.live = true → s.enc.cnt < 2 ^ s.cfg.cntBits) ∧
    (s.seq.live = true → s.seq.index < 2 ^ s.cfg.idxBits) ∧
    (s.rx.live = true → s.rx.cnt < 2 ^ s.cfg.rxCntBits ∧ s.rx.n < 2 ^ 7)

/-- An operation writes its own block only (10_state.md R20; 60_exceptions.md R243): the codec operations their
output ports, an encoder-half operation the encoder half, a sequencer-half operation the sequencer half, a receiver
operation the receiver; a reserved block id answers no next state. -/
def Obligations.EveryOperationWritesOnlyItsBlock : Prop :=
  ∀ i s t, exec i s = .next t →
    (blockOf (encode i) = 0b000 ∧ t = s.setEncOut t.encOut) ∨
    (blockOf (encode i) = 0b001 ∧ t = s.setDecOut t.decOut) ∨
    (blockOf (encode i) = 0b010 ∧ t = s.setEnc t.enc) ∨
    (blockOf (encode i) = 0b011 ∧ t = s.setSeq t.seq) ∨
    (blockOf (encode i) = 0b100 ∧ t = s.setRx t.rx)

/-! ### Reset and power-on -/

/-- The reset table (R39) and the reset edge (R260): a reset edge of either block gives every register its value,
whatever the state (unreset or not), `en`, `pending_frame` and the samples are; during the reset cycle `request` and
`frame_latched` are 0, and after it `level` is 0 and `symbol` is Marker; after an RX_RESET edge every output of
`irig_rx` is 0. -/
def Obligations.ResetEdgeGivesTheResetTable : Prop :=
  (∀ (s : State) d rest, s.stimulus = txOnly d :: rest → d.rst = true →
    (txOut s d.rst d.en).request = false ∧ (txOut s d.rst d.en).frameLatched = false ∧
    ∃ t, step s = .next t ∧
      t.enc = { live := true, cnt := 0, level := false, reqQ := false } ∧
      t.seq = { live := true, phase := .await, index := 0, buf := 0, flQ := false } ∧
      t.rx = s.rx ∧ t.encOut = s.encOut ∧ t.decOut = s.decOut ∧ t.cfg = s.cfg ∧
      ∀ rst en, (txOut t rst en).level = false ∧ (txOut t rst en).symbol = Symbol.marker.code ∧
        (txOut t rst en).request = false ∧ (txOut t rst en).frameLatched = false) ∧
  (∀ (s : State) d rest, s.stimulus = rxOnly d :: rest → d.rst = true →
    ∃ t, step s = .next t ∧
      t.rx =
        { live := true, prev := false, cnt := 0, n := 0, syms := List.replicate s.cfg.W 0b00
          done := false, status := .ok, ts := 0 } ∧
      t.enc = s.enc ∧ t.seq = s.seq ∧ t.encOut = s.encOut ∧ t.decOut = s.decOut ∧ t.cfg = s.cfg ∧
      rxOut t = { done := false, status := 0, ts := 0, rxFrame := 0, dbgRxN := 0 })

/-- R261: from "unreset", every edge of `irig_tx` but a reset edge is refused, a disabled one too, and every edge of
`irig_rx` but RX_RESET; an instance starts so at power-on; the codec blocks have no such state. -/
def Obligations.UnresetBlocksRefuseAllButReset : Prop :=
  (∀ (s : State) d rest, s.stimulus = txOnly d :: rest → d.rst = false → s.enc.live = false →
    step s = .refused .unresetTransmitter) ∧
  (∀ (s : State) d rest, s.stimulus = rxOnly d :: rest → d.rst = false → s.rx.live = false →
    step s = .refused .unresetReceiver) ∧
  (∀ c, (State.powerOn c).enc.live = false ∧ (State.powerOn c).seq.live = false ∧ (State.powerOn c).rx.live = false) ∧
  (∀ c ctl p, exec (.decode ctl) ((State.powerOn c).setPorts p) =
    .next (((State.powerOn c).setPorts p).setDecOut (decodeFrame c.W p.frameIn))) ∧
  (∀ c ctl (p : Ports) out, encodeWord c.W p.tsIn = some out →
    exec (.encode ctl) ((State.powerOn c).setPorts p) = .next (((State.powerOn c).setPorts p).setEncOut out))

/-! ### Symbol encoder -/

/-- ENC_RESET (R143): completes from every state. ENC_HOLD (R144): completes and changes nothing. -/
def Obligations.EncoderResetAndHold : Prop :=
  (∀ en last spare (s : State), exec (.encReset en last spare) s =
    .next (s.setEnc { live := true, cnt := 0, level := false, reqQ := false })) ∧
  (∀ last spare (s : State), s.enc.live = true → exec (.encHold last spare) s = .next s)

/-- ENC_TICK (R145) and ENC_TICK_LAST (R146) with the duty function R141 written out: the level for the symbol on
`sym_in` at the tick, the request token, the counter; nothing else changes. -/
def Obligations.EncoderTicksFollowTheDutyFunction : Prop :=
  ∀ spare (s : State) (sym : Symbol), s.enc.live = true → s.ports.symIn = sym.code →
    exec (.encTick spare) s =
      .next (s.setEnc
        { live := true
          cnt := s.enc.cnt + 1
          level :=
            match sym with
            | .zero => decide (5 * s.enc.cnt < s.cfg.P)
            | .one => decide (2 * s.enc.cnt < s.cfg.P)
            | .marker => decide (5 * s.enc.cnt < 4 * s.cfg.P)
          reqQ := false }) ∧
    exec (.encTickLast spare) s =
      .next (s.setEnc
        { live := true
          cnt := 0
          level :=
            match sym with
            | .zero => decide (5 * (s.cfg.P - 1) < s.cfg.P)
            | .one => decide (2 * (s.cfg.P - 1) < s.cfg.P)
            | .marker => decide (5 * (s.cfg.P - 1) < 4 * s.cfg.P)
          reqQ := true })

/-- R148: an enabled encoder edge with `sym_in` = 0b11 is refused, ENC_RESET and ENC_HOLD are defined for it, and the
sequencer never drives it. -/
def Obligations.ReservedSymbolIsRefusedAtAnEnabledEdge : Prop :=
  (∀ spare (s : State), s.enc.live = true → s.ports.symIn = 0b11 →
    exec (.encTick spare) s = .refused .symbolCode3 ∧ exec (.encTickLast spare) s = .refused .symbolCode3) ∧
  (∀ (s : State), s.enc.live = true → s.ports.symIn = 0b11 →
    (∀ en last spare, ∃ t, exec (.encReset en last spare) s = .next t) ∧
    (∀ last spare, ∃ t, exec (.encHold last spare) s = .next t)) ∧
  (∀ q, (symbolOf q).code ≠ 0b11)

/-- R142: the number of high ticks of each symbol, high ticks first, and what P tells apart. -/
def Obligations.HighTicksOfABitPeriod : Prop :=
  ∀ P, 1 ≤ P →
    highTicks P .zero = (P + 4) / 5 ∧ highTicks P .one = (P + 1) / 2 ∧ highTicks P .marker = (4 * P + 4) / 5 ∧
    (∀ sym c, c < P → (high P sym c = true ↔ c < highTicks P sym)) ∧
    (∀ sym, high P sym 0 = true) ∧
    (5 ≤ P → highTicks P .zero < highTicks P .one ∧ highTicks P .one < highTicks P .marker ∧ highTicks P .marker < P)

/-- R149: `sym_in` held through k ≤ P enabled edges from `cnt` = 0 gives the levels HIGH(sym, 0) to HIGH(sym, k-1) in
turn, and the request token after the P-th. (The encoder half is driven alone, log 7.) -/
def Obligations.HeldSymbolGivesItsWaveform : Prop :=
  ∀ (s : State) (sym : Symbol) k, s.enc.live = true → s.enc.cnt = 0 → 1 ≤ k → k ≤ s.cfg.P →
    ∃ t, runLines (times k (.alone 0x082 (some sym.code))) s = .next t ∧
      t.enc.level = high s.cfg.P sym (k - 1) ∧ t.enc.cnt = k % s.cfg.P ∧ t.enc.reqQ = decide (k = s.cfg.P)

/-! ### Frame sequencer -/

/-- SEQ_RESET (R161): completes from every state. SEQ_HOLD (R162): completes and changes nothing. -/
def Obligations.SequencerResetAndHold : Prop :=
  (∀ en req phase last (s : State), exec (.seqReset en req phase last) s =
    .next (s.setSeq { live := true, phase := .await, index := 0, buf := 0, flQ := false })) ∧
  (∀ req phase last (s : State), s.seq.live = true → exec (.seqHold req phase last) s = .next s)

/-- SEQ_AWAIT_IDLE (R163) and SEQ_AWAIT_REQ (R164). -/
def Obligations.SequencerAwaitsTheFirstRequest : Prop :=
  ∀ last (s : State), s.seq.live = true →
    exec (.seqAwaitIdle last) s = .next (s.setSeq { s.seq with index := 0, flQ := false }) ∧
    exec (.seqAwaitReq last) s = .next (s.setSeq { s.seq with phase := .latch, index := 0, flQ := false })

/-- SEQ_LATCH_FIRST (R165) and SEQ_STREAM_WRAP (R169): all W bits of `pending_frame` at the edge (R58), `fl_q` set,
index 0. -/
def Obligations.SequencerLatchesThePendingFrame : Prop :=
  ∀ (s : State), s.seq.live = true →
    (∀ req last, ∃ t, exec (.seqLatchFirst req last) s = .next t ∧ t = s.setSeq t.seq ∧
      t.seq.live = true ∧ t.seq.phase = .stream ∧ t.seq.index = 0 ∧ t.seq.flQ = true ∧
      ∀ i, t.seq.buf.getLsbD i = (decide (i < s.cfg.W) && s.ports.pendingFrame.getLsbD i)) ∧
    (∃ t, exec .seqStreamWrap s = .next t ∧ t = s.setSeq t.seq ∧
      t.seq.live = true ∧ t.seq.phase = s.seq.phase ∧ t.seq.index = 0 ∧ t.seq.flQ = true ∧
      ∀ i, t.seq.buf.getLsbD i = (decide (i < s.cfg.W) && s.ports.pendingFrame.getLsbD i))

/-- SEQ_STREAM_IDLE (R166) and SEQ_STREAM_ADVANCE (R168). -/
def Obligations.SequencerStreamsTheFrame : Prop :=
  ∀ (s : State), s.seq.live = true →
    (∀ last, exec (.seqStreamIdle last) s = .next (s.setSeq { s.seq with flQ := false })) ∧
    exec .seqStreamAdvance s = .next (s.setSeq { s.seq with index := s.seq.index + 1, flQ := false })

/-- R170: an enabled, non-reset edge of `irig_tx` in phase 0b11 has no next state; SEQ_RESET and SEQ_HOLD are defined
from that phase. -/
def Obligations.UnnamedPhaseIsRefusedAtAnEnabledEdge : Prop :=
  (∀ (s : State) d rest, s.stimulus = txOnly d :: rest → s.seq.phase = .code3 → s.enc.live = true → s.seq.live = true →
    d.rst = false → d.en = true → step s = .refused .sequencerPhase3) ∧
  (∀ (s : State) d rest, s.stimulus = txOnly d :: rest → s.seq.phase = .code3 → s.enc.live = true → s.seq.live = true →
    d.rst = true ∨ d.en = false → ∃ t, step s = .next t)

/-- SYM (R160): Marker at index 0 and at each index with remainder 9, else the bit of `buf` at the index; Marker in
AWAIT and LATCH; and for every frame ENCODE produces, with its payload in `buf`, the frame's symbol at the index. -/
def Obligations.SymbolFollowsIndexAndBuffer : Prop :=
  (∀ q, symbolOf q =
    if q.index = 0 ∨ q.index % 10 = 9 then .marker else if q.buf.getLsbD q.index = true then .one else .zero) ∧
  (∀ c (q : SeqRegs), q.Inv c → q.phase ≠ .stream → symbolOf q = .marker) ∧
  (∀ (c : Config) w out, encodeWord c.W w = some out → out.status = .ok →
    ∀ q : SeqRegs, q.buf = out.bits → q.index < c.W → (symbolOf q).code = out.syms.getD q.index 0b11)

/-- R167: `frame_latched` is 1 exactly in an enabled, non-reset cycle with `fl_q` set; each latch operation sets
`fl_q`; then the first enabled, non-reset cycle shows the pulse and its edge clears it, disabled edges before it keep the
token and show 0, and a reset drops it. -/
def Obligations.LatchPulseShowsForOneEnabledCycle : Prop :=
  (∀ q rst en, frameLatchedOut q rst en = true ↔ q.flQ = true ∧ en = true ∧ rst = false) ∧
  (∀ (s : State) t req last, exec (.seqLatchFirst req last) s = .next t ∨ exec .seqStreamWrap s = .next t →
    t.seq.flQ = true) ∧
  (∀ (s : State) d rest t, s.Inv → s.stimulus = txOnly d :: rest → s.enc.live = true → s.seq.live = true →
    s.seq.flQ = true → step s = .next t →
    (d.rst = false → d.en = true → frameLatchedOut s.seq d.rst d.en = true ∧ t.seq.flQ = false) ∧
    (d.rst = false → d.en = false → frameLatchedOut s.seq d.rst d.en = false ∧ t.seq.flQ = true) ∧
    (d.rst = true → frameLatchedOut s.seq d.rst d.en = false ∧ t.seq.flQ = false))

/-- R147: `request` is 1 exactly in an enabled, non-reset cycle with the token set; at that cycle's edge the encoder
takes a new token value (set only if the edge is a last tick) while the sequencer sees the request and consumes it; a
disabled cycle consumes nothing. -/
def Obligations.RequestTokenIsPresentedAndReplaced : Prop :=
  (∀ e rst en, requestOut e rst en = true ↔ e.reqQ = true ∧ en = true ∧ rst = false) ∧
  (∀ (s : State) d rest t, s.stimulus = txOnly d :: rest → requestOut s.enc d.rst d.en = true → step s = .next t →
    t.enc.reqQ = encLast s.cfg s.enc ∧
    (s.seq.phase = .await → t.seq.phase = .latch) ∧
    (s.seq.phase = .stream → t.seq.index = if s.seq.index = s.cfg.W - 1 then 0 else s.seq.index + 1)) ∧
  (∀ (s : State) d rest t, s.stimulus = txOnly d :: rest → d.rst = false → d.en = false → step s = .next t →
    t.enc.reqQ = s.enc.reqQ ∧ t.seq = s.seq)

/-- R174, R58: `buf` changes only at a latch, which copies the W bits of `pending_frame`, or at a reset; `index` is
then 0. -/
def Obligations.BufferChangesOnlyAtALatch : Prop :=
  ∀ (s : State) t, step s = .next t → t.seq.buf ≠ s.seq.buf →
    t.seq.index = 0 ∧
      ((t.seq.phase = .await ∧ t.seq.buf = 0) ∨
       (t.seq.flQ = true ∧ t.seq.buf = wires s.cfg.W t.ports.pendingFrame))

/-- R59: at an edge that is no latch edge the value of `pending_frame` has no effect on any register. -/
def Obligations.PendingFrameIsSampledOnlyAtALatch : Prop :=
  ∀ (s : State) d rest p, s.stimulus = txOnly d :: rest → d.pend = none →
    ¬(d.rst = false ∧ d.en = true ∧
      (s.seq.phase = .latch ∨ (s.seq.phase = .stream ∧ s.enc.reqQ = true ∧ s.seq.index = s.cfg.W - 1))) →
    ∀ t, step s = .next t →
      step (s.setPorts { s.ports with pendingFrame := p }) = .next (t.setPorts { t.ports with pendingFrame := p })

/-- R177: inserting disabled edges anywhere changes neither half's registers at the end; and a disabled cycle shows no
pulse. -/
def Obligations.PauseIsExact : Prop :=
  (∀ (s : State) (ds : List TxDrive) t, s.enc.live = true → s.seq.live = true → (∀ d ∈ ds, d.pend = none) →
    runLines (ds.map txOnly) s = .next t →
    ∃ u, runLines ((ds.filter fun d => d.rst || d.en).map txOnly) s = .next u ∧ u.enc = t.enc ∧ u.seq = t.seq) ∧
  (∀ (s : State) (ds : List TxDrive) u, s.enc.live = true → s.seq.live = true → (∀ d ∈ ds, d.pend = none) →
    runLines ((ds.filter fun d => d.rst || d.en).map txOnly) s = .next u →
    ∃ t, runLines (ds.map txOnly) s = .next t ∧ u.enc = t.enc ∧ u.seq = t.seq) ∧
  (∀ (s : State) rst, (txOut s rst false).request = false ∧ (txOut s rst false).frameLatched = false)

/-- R172, R173, R175: for P ≥ 2, after a reset edge and k enabled edges with one `pending_frame` throughout: the tick
counter, the token, the bootstrap phase, the index of the current bit period, the latch edges P+2 and
(n-1)·W·P + P + 1, the buffer, and the level of the current tick. From any state, unreset ones too. -/
def Obligations.TransmitterTimeline : Prop :=
  ∀ (s : State) (pend : Payload) (k : Nat), 2 ≤ s.cfg.P → 1 ≤ k →
    let P := s.cfg.P
    let W := s.cfg.W
    let period := (k - 1) / P
    ∃ t, runLines (txOnly { txRst with pend := some pend } :: times k (txOnly txTick)) s = .next t ∧
      t.enc.live = true ∧ t.seq.live = true ∧
      t.enc.cnt = k % P ∧
      t.enc.reqQ = decide (k % P = 0) ∧
      t.seq.phase = (if k ≤ P then .await else if k = P + 1 then .latch else .stream) ∧
      t.seq.index = (if k ≤ P then 0 else (period - 1) % W) ∧
      (t.seq.flQ = true ↔ k = P + 2 ∨ ∃ n, 2 ≤ n ∧ k = (n - 1) * (W * P) + P + 1) ∧
      t.seq.buf = (if k < P + 2 then 0 else wires W pend) ∧
      t.enc.level =
        high P
          (if period = 0 then .marker
           else symbolOf { live := true, phase := .stream, index := (period - 1) % W, buf := wires W pend, flQ := false })
          ((k - 1) % P)

/-- P = 1 (R178, from R171): after a reset edge and k enabled edges every edge has set the token again, the request at
the first latch (edge 3) is lost, and the latches are the edges 3, W + 3, 2·W + 3, … (log 21 on R178's index). -/
def Obligations.SingleTickTimeline : Prop :=
  ∀ (s : State) (pend : Payload) (k : Nat), s.cfg.P = 1 → 1 ≤ k →
    let W := s.cfg.W
    ∃ t, runLines (txOnly { txRst with pend := some pend } :: times k (txOnly txTick)) s = .next t ∧
      t.enc = { live := true, cnt := 0, level := true, reqQ := true } ∧
      t.seq =
        { live := true
          phase := if k = 1 then .await else if k = 2 then .latch else .stream
          index := (k - 3) % W
          buf := if k < 3 then 0 else wires W pend
          flQ := decide (3 ≤ k ∧ (k - 3) % W = 0) }

/-! ### Codec -/

/-- R101, R104 (and R109, R103): the marker, forced-zero and data positions, listed, for both frame widths. -/
def Obligations.LayoutListsThePositions : Prop :=
  (List.range 100).filter isMarker = [0, 9, 19, 29, 39, 49, 59, 69, 79, 89, 99] ∧
  (List.range 60).filter isMarker = [0, 9, 19, 29, 39, 49, 59] ∧
  (List.range 100).filter isForcedZero =
    [5, 14, 18, 24, 27, 28, 34, 42, 43, 44, 45, 46, 47, 48, 54] ++ [60, 61, 62, 63, 64, 65, 66, 67, 68] ++
    [70, 71, 72, 73, 74, 75, 76, 77, 78] ++ [80, 81, 82, 83, 84, 85, 86, 87, 88] ++
    [90, 91, 92, 93, 94, 95, 96, 97, 98] ∧
  (List.range 60).filter isForcedZero = [5, 14, 18, 24, 27, 28, 34, 42, 43, 44, 45, 46, 47, 48, 54] ∧
  (List.range 100).filter (fun i => (dataAt i).isSome) =
    [1, 2, 3, 4, 6, 7, 8, 10, 11, 12, 13, 15, 16, 17, 20, 21, 22, 23, 25, 26] ++
    [30, 31, 32, 33, 35, 36, 37, 38, 40, 41, 50, 51, 52, 53, 55, 56, 57, 58]

/-- R102, R103, R115 (and R53, R121, R110): every digit's start and width; the digit and weight of every data position,
listed, and of no other; a digit is read as the weighted sum of its positions that hold One; the fields a frame spells. -/
def Obligations.DigitsSitAtTheirPositionsWithTheirWeights : Prop :=
  (digitStart .secU = 1 ∧ digitWidth .secU = 4 ∧
    dataAt 1 = some (.secU, 8) ∧ dataAt 2 = some (.secU, 4) ∧ dataAt 3 = some (.secU, 2) ∧
    dataAt 4 = some (.secU, 1)) ∧
  (digitStart .secT = 6 ∧ digitWidth .secT = 3 ∧
    dataAt 6 = some (.secT, 4) ∧ dataAt 7 = some (.secT, 2) ∧ dataAt 8 = some (.secT, 1)) ∧
  (digitStart .minU = 10 ∧ digitWidth .minU = 4 ∧
    dataAt 10 = some (.minU, 8) ∧ dataAt 11 = some (.minU, 4) ∧ dataAt 12 = some (.minU, 2) ∧
    dataAt 13 = some (.minU, 1)) ∧
  (digitStart .minT = 15 ∧ digitWidth .minT = 3 ∧
    dataAt 15 = some (.minT, 4) ∧ dataAt 16 = some (.minT, 2) ∧ dataAt 17 = some (.minT, 1)) ∧
  (digitStart .hrU = 20 ∧ digitWidth .hrU = 4 ∧
    dataAt 20 = some (.hrU, 8) ∧ dataAt 21 = some (.hrU, 4) ∧ dataAt 22 = some (.hrU, 2) ∧
    dataAt 23 = some (.hrU, 1)) ∧
  (digitStart .hrT = 25 ∧ digitWidth .hrT = 2 ∧
    dataAt 25 = some (.hrT, 2) ∧ dataAt 26 = some (.hrT, 1)) ∧
  (digitStart .dayU = 30 ∧ digitWidth .dayU = 4 ∧
    dataAt 30 = some (.dayU, 8) ∧ dataAt 31 = some (.dayU, 4) ∧ dataAt 32 = some (.dayU, 2) ∧
    dataAt 33 = some (.dayU, 1)) ∧
  (digitStart .dayT = 35 ∧ digitWidth .dayT = 4 ∧
    dataAt 35 = some (.dayT, 8) ∧ dataAt 36 = some (.dayT, 4) ∧ dataAt 37 = some (.dayT, 2) ∧
    dataAt 38 = some (.dayT, 1)) ∧
  (digitStart .dayH = 40 ∧ digitWidth .dayH = 2 ∧
    dataAt 40 = some (.dayH, 2) ∧ dataAt 41 = some (.dayH, 1)) ∧
  (digitStart .yrU = 50 ∧ digitWidth .yrU = 4 ∧
    dataAt 50 = some (.yrU, 8) ∧ dataAt 51 = some (.yrU, 4) ∧ dataAt 52 = some (.yrU, 2) ∧
    dataAt 53 = some (.yrU, 1)) ∧
  (digitStart .yrT = 55 ∧ digitWidth .yrT = 4 ∧
    dataAt 55 = some (.yrT, 8) ∧ dataAt 56 = some (.yrT, 4) ∧ dataAt 57 = some (.yrT, 2) ∧
    dataAt 58 = some (.yrT, 1)) ∧
  (∀ i, (dataAt i).isSome = true →
    i ∈ [1, 2, 3, 4, 6, 7, 8, 10, 11, 12, 13, 15, 16, 17, 20, 21, 22, 23, 25, 26] ∨
    i ∈ [30, 31, 32, 33, 35, 36, 37, 38, 40, 41, 50, 51, 52, 53, 55, 56, 57, 58]) ∧
  (∀ F : List SymCode,
    let one (i : Nat) : Nat := if F.getD i 0 = 0b01 then 1 else 0
    readDigit F .secU = 8 * one 1 + 4 * one 2 + 2 * one 3 + one 4 ∧
    readDigit F .secT = 4 * one 6 + 2 * one 7 + one 8 ∧
    readDigit F .minU = 8 * one 10 + 4 * one 11 + 2 * one 12 + one 13 ∧
    readDigit F .minT = 4 * one 15 + 2 * one 16 + one 17 ∧
    readDigit F .hrU = 8 * one 20 + 4 * one 21 + 2 * one 22 + one 23 ∧
    readDigit F .hrT = 2 * one 25 + one 26 ∧
    readDigit F .dayU = 8 * one 30 + 4 * one 31 + 2 * one 32 + one 33 ∧
    readDigit F .dayT = 8 * one 35 + 4 * one 36 + 2 * one 37 + one 38 ∧
    readDigit F .dayH = 2 * one 40 + one 41 ∧
    readDigit F .yrU = 8 * one 50 + 4 * one 51 + 2 * one 52 + one 53 ∧
    readDigit F .yrT = 8 * one 55 + 4 * one 56 + 2 * one 57 + one 58) ∧
  (∀ F d, readDigit F d ≤ 2 ^ digitWidth d - 1) ∧
  (∀ F : List SymCode,
    (timestampOf F).sec = 10 * readDigit F .secT + readDigit F .secU ∧
    (timestampOf F).min = 10 * readDigit F .minT + readDigit F .minU ∧
    (timestampOf F).hr = 10 * readDigit F .hrT + readDigit F .hrU ∧
    (timestampOf F).day = 100 * readDigit F .dayH + 10 * readDigit F .dayT + readDigit F .dayU ∧
    (timestampOf F).year = 2000 + 10 * readDigit F .yrT + readDigit F .yrU)

/-- R75: the timestamp word and its fields; every word is the word of its fields. -/
def Obligations.TimestampWordHoldsItsFields : Prop :=
  (∀ t : Timestamp, t.sec < 64 → t.min < 64 → t.hr < 32 → t.day < 512 → t.year < 4096 →
    Timestamp.ofWord t.toWord = t ∧
    t.toWord.toNat = t.sec + 2 ^ 6 * t.min + 2 ^ 12 * t.hr + 2 ^ 17 * t.day + 2 ^ 26 * t.year) ∧
  (∀ w : TsWord, (Timestamp.ofWord w).toWord = w)

/-- R72, R73, R119: element i of a symbol vector is at bits 2i+1..2i; bit i of a payload vector is 1 exactly when
symbol i is One. -/
def Obligations.FrameVectorsHoldTheirElements : Prop :=
  (∀ (codes : List SymCode) i, codes.length ≤ 100 → i < codes.length →
    (symbolVector codes).extractLsb' (2 * i) 2 = codes.getD i 0b11) ∧
  (∀ (frame : List Symbol) i, frame.length ≤ 100 →
    (payloadOf frame).getLsbD i = decide (frame[i]? = some .one))

/-- ENCODE (R100, R107, R108): InvalidYear first; in range, status OK and the frame of R100, symbol by symbol, with
the digits of R105 and R106 and the payload of R119; otherwise refused. It changes nothing else. -/
def Obligations.EncodeGivesTheFrameOrTheError : Prop :=
  ∀ ctl (s : State), let t := Timestamp.ofWord s.ports.tsIn
    (t.year < 2000 ∨ 2099 < t.year →
      exec (.encode ctl) s = .next (s.setEncOut ⟨0, List.replicate s.cfg.W 0b00, .invalidYear⟩)) ∧
    (2000 ≤ t.year → t.year ≤ 2099 → t.sec ≤ 59 → t.min ≤ 59 → t.hr ≤ 23 → 1 ≤ t.day → t.day ≤ 366 →
      ∃ out, exec (.encode ctl) s = .next (s.setEncOut out) ∧ out.status = .ok ∧ out.syms.length = s.cfg.W ∧
        (∀ i, i < s.cfg.W →
          out.syms.getD i 0b11 =
            (match isMarker i, dataAt i with
             | true, _ => Symbol.marker.code
             | false, some (d, wt) =>
               let digit : Nat :=
                 match d with
                 | .secU => t.sec % 10
                 | .secT => t.sec / 10
                 | .minU => t.min % 10
                 | .minT => t.min / 10
                 | .hrU => t.hr % 10
                 | .hrT => t.hr / 10
                 | .dayU => t.day % 10
                 | .dayT => (t.day / 10) % 10
                 | .dayH => t.day / 100
                 | .yrU => (t.year - 2000) % 10
                 | .yrT => (t.year - 2000) / 10
               if digit / wt % 2 = 1 then Symbol.one.code else Symbol.zero.code
             | false, none => Symbol.zero.code)) ∧
        (∀ i, out.bits.getLsbD i = (decide (i < s.cfg.W) && decide (out.syms.getD i 0 = Symbol.one.code)))) ∧
    (2000 ≤ t.year → t.year ≤ 2099 → (59 < t.sec ∨ 59 < t.min ∨ 23 < t.hr ∨ t.day < 1 ∨ 366 < t.day) →
      exec (.encode ctl) s = .refused .encodeFieldOutOfRange)

/-- DECODE (R110 to R118): accepted exactly when the length, every position, every 4-bit digit and every field pass;
then status OK and the word of the fields, the year in 2000..2099; otherwise MalformedFrame and zero. It completes on
every frame and changes nothing else; it never gives InvalidYear (R124). -/
def Obligations.DecodeAcceptsExactlyTheLegalFrames : Prop :=
  ∀ ctl (s : State),
    exec (.decode ctl) s = .next (s.setDecOut (decodeFrame s.cfg.W s.ports.frameIn)) ∧
    (let F := s.ports.frameIn
     let W := s.cfg.W
     let t := timestampOf F
     let legal : Prop :=
       F.length = W ∧
       (∀ i, i < W → isMarker i = true → F.getD i 0b11 = Symbol.marker.code) ∧
       (∀ i, i < W → isForcedZero i = true → F.getD i 0b11 = Symbol.zero.code) ∧
       (∀ i, i < W → (dataAt i).isSome = true → F.getD i 0b11 = Symbol.zero.code ∨ F.getD i 0b11 = Symbol.one.code) ∧
       (∀ d, digitWidth d = 4 → readDigit F d ≤ 9) ∧
       t.sec ≤ 59 ∧ t.min ≤ 59 ∧ t.hr ≤ 23 ∧ 1 ≤ t.day ∧ t.day ≤ 366
     (legal → decodeFrame W F = ⟨t.toWord, .ok⟩ ∧ 2000 ≤ t.year ∧ t.year ≤ 2099) ∧
     (¬legal → decodeFrame W F = ⟨0, .malformedFrame⟩))

/-- R123: every frame ENCODE produces has Marker at every marker position, Zero at every forced-zero position, Zero or
One at every data position. -/
def Obligations.EncodedFramesKeepTheFrameInvariants : Prop :=
  ∀ (c : Config) w out, encodeWord c.W w = some out → out.status = .ok →
    ∀ i, i < c.W →
      (isMarker i = true → out.syms.getD i 0b11 = Symbol.marker.code) ∧
      (isForcedZero i = true → out.syms.getD i 0b11 = Symbol.zero.code) ∧
      ((dataAt i).isSome = true → out.syms.getD i 0b11 = Symbol.zero.code ∨ out.syms.getD i 0b11 = Symbol.one.code)

/-- R122, first half: DECODE of ENCODE gives the timestamp back, for both widths and every valid timestamp. -/
def Obligations.DecodeInvertsEncode : Prop :=
  ∀ (c : Config) (w : TsWord),
    yearInRange (Timestamp.ofWord w) = true → fieldsInRange (Timestamp.ofWord w) = true →
    ∃ out, encodeWord c.W w = some out ∧ decodeFrame c.W out.syms = ⟨w, .ok⟩

/-- R122, the converse: every frame DECODE accepts is the ENCODE of the timestamp it returns. -/
def Obligations.AcceptedFramesAreEncodings : Prop :=
  ∀ (c : Config) (frame : List SymCode) (w : TsWord), decodeFrame c.W frame = ⟨w, .ok⟩ →
    ∃ out, encodeWord c.W w = some out ∧ out.status = .ok ∧ out.syms = frame

/-! ### Receiver -/

/-- RX_RESET (R202): completes from every state. RX_DONE_HOLD (R203) and RX_IDLE (R205): complete and change
nothing. -/
def Obligations.ReceiverResetHoldAndIdle : Prop :=
  (∀ done ended valid sample prev (s : State), exec (.rxReset done ended valid sample prev) s =
    .next (s.setRx
      { live := true, prev := false, cnt := 0, n := 0, syms := List.replicate s.cfg.W 0b00
        done := false, status := .ok, ts := 0 })) ∧
  (∀ ended valid sample prev (s : State), s.rx.live = true → exec (.rxDoneHold ended valid sample prev) s = .next s) ∧
  (∀ sample prev (s : State), s.rx.live = true → exec (.rxIdle sample prev) s = .next s)

/-- RX_END (R204, R234): IncompleteFrame recorded, timestamp zero, done; the samples and symbols stay. -/
def Obligations.StreamEndRecordsIncompleteFrame : Prop :=
  ∀ valid sample prev (s : State), s.rx.live = true →
    exec (.rxEnd valid sample prev) s =
      .next (s.setRx { s.rx with done := true, status := .incompleteFrame, ts := 0 })

/-- RX_HIGH (R206): the counter saturates at P. RX_LOW (R207): nothing but `rx_prev`. -/
def Obligations.SamplesCountThePulse : Prop :=
  ∀ (s : State), s.rx.live = true →
    (∀ prev, exec (.rxHigh prev) s =
      .next (s.setRx
        { s.rx with cnt := if s.rx.cnt + 1 ≤ s.cfg.P then s.rx.cnt + 1 else s.cfg.P, prev := true })) ∧
    exec .rxLow s = .next (s.setRx { s.rx with prev := false })

/-- RX_FALL (R208, R213): noise clears the counter and appends nothing; a symbol before the W-th is appended at
`rx_n`; the W-th one also sets done and the status and timestamp of DECODE of the new vector. -/
def Obligations.FallingEdgeClassifiesThePulse : Prop :=
  ∀ (s : State), s.rx.live = true →
    (classify s.cfg.P s.rx.cnt = none →
      exec .rxFall s = .next (s.setRx { s.rx with cnt := 0, prev := false })) ∧
    (∀ sym, classify s.cfg.P s.rx.cnt = some sym → s.rx.n + 1 < s.cfg.W →
      exec .rxFall s = .next (s.setRx
        { s.rx with cnt := 0, prev := false, n := s.rx.n + 1, syms := s.rx.syms.set s.rx.n sym.code })) ∧
    (∀ sym, classify s.cfg.P s.rx.cnt = some sym → s.rx.n + 1 = s.cfg.W →
      let syms := s.rx.syms.set s.rx.n sym.code
      exec .rxFall s = .next (s.setRx
        { s.rx with
          cnt := 0, prev := false, n := s.rx.n + 1, syms := syms, done := true
          status := (decodeFrame s.cfg.W syms).status, ts := (decodeFrame s.cfg.W syms).ts }))

/-- R81, R5: the outputs of `irig_rx` are its registers: `done`, the code of `status` (R76), `ts`, element i of `rx_syms`
at bits 2i+1..2i of `rx_frame` and nothing above the last, `dbg_rx_n`. Under the invariants a reset receiver shows only
the statuses OK, MalformedFrame and IncompleteFrame, and a zero `ts` unless it is done with OK. -/
def Obligations.ReceiverOutputsAreItsRegisters : Prop :=
  (∀ (s : State),
    (rxOut s).done = s.rx.done ∧ (rxOut s).ts = s.rx.ts ∧ (rxOut s).dbgRxN = s.rx.n ∧
    (rxOut s).status =
      (match s.rx.status with
       | .ok => 0
       | .invalidYear => 1
       | .malformedFrame => 2
       | .incompleteFrame => 3
       | .unknownVariant => 4)) ∧
  (∀ (s : State) i, s.rx.syms.length ≤ 100 → i < s.rx.syms.length →
    (rxOut s).rxFrame.extractLsb' (2 * i) 2 = s.rx.syms.getD i 0b11) ∧
  (∀ (s : State) i, s.rx.syms.length ≤ 100 → 2 * s.rx.syms.length ≤ i → (rxOut s).rxFrame.getLsbD i = false) ∧
  (∀ (s : State), s.Inv → s.rx.live = true →
    ((rxOut s).status = 0 ∨ (rxOut s).status = 2 ∨ (rxOut s).status = 3) ∧
    ((rxOut s).ts ≠ 0 → (rxOut s).done = true ∧ (rxOut s).status = 0))

/-- R201: the exact comparisons, and the whole table for P = 10. -/
def Obligations.ClassifierThresholds : Prop :=
  (∀ P c, classify P c = some .marker ↔ 4 * P ≤ 5 * c) ∧
  (∀ P c, classify P c = some .one ↔ 5 * c < 4 * P ∧ P ≤ 2 * c) ∧
  (∀ P c, classify P c = some .zero ↔ 5 * c < 4 * P ∧ 2 * c < P ∧ P ≤ 5 * c) ∧
  (∀ P c, classify P c = none ↔ 5 * c < P) ∧
  ([0, 1, 2, 3, 4, 5, 6, 7, 8, 9, 10].map (classify 10) =
    [none, none, some .zero, some .zero, some .zero, some .one, some .one, some .one] ++
    [some .marker, some .marker, some .marker])

/-- R238 for `irig_rx`: `rx_rst`, then `done`, then `rx_end`, then `rx_valid` select the operation. -/
def Obligations.ReceiverPriorities : Prop :=
  ∀ (r : RxRegs) (rst valid sample ended : Bool),
    let i := decodeVector (rxVector r rst valid sample ended)
    (rst = true → i = .rxReset r.done ended valid sample r.prev) ∧
    (rst = false → r.done = true → i = .rxDoneHold ended valid sample r.prev) ∧
    (rst = false → r.done = false → ended = true → i = .rxEnd valid sample r.prev) ∧
    (rst = false → r.done = false → ended = false → valid = false → i = .rxIdle sample r.prev) ∧
    (rst = false → r.done = false → ended = false → valid = true → sample = true → i = .rxHigh r.prev) ∧
    (rst = false → r.done = false → ended = false → valid = true → sample = false → r.prev = false → i = .rxLow) ∧
    (rst = false → r.done = false → ended = false → valid = true → sample = false → r.prev = true → i = .rxFall)

/-- R238, R84 for `irig_tx`: `rst`, then `en`, then phase, request and `last` select the sequencer operation; the
encoder half's follows `rst`, `en` and `last` (R83). -/
def Obligations.TransmitterOperationSelect : Prop :=
  (∀ c e rst en spare,
    let i := decodeVector (encVector c e rst en spare)
    (rst = true → i = .encReset en (encLast c e) spare) ∧
    (rst = false → en = false → i = .encHold (encLast c e) spare) ∧
    (rst = false → en = true → e.cnt ≠ c.P - 1 → i = .encTick spare) ∧
    (rst = false → en = true → e.cnt = c.P - 1 → i = .encTickLast spare)) ∧
  (∀ c (q : SeqRegs) rst en req,
    let i := decodeVector (seqVector c q rst en req)
    let last := seqLast c q
    (rst = true → i = .seqReset en req q.phase.code last) ∧
    (rst = false → en = false → i = .seqHold req q.phase.code last) ∧
    (rst = false → en = true → q.phase = .await → req = false → i = .seqAwaitIdle last) ∧
    (rst = false → en = true → q.phase = .await → req = true → i = .seqAwaitReq last) ∧
    (rst = false → en = true → q.phase = .latch → i = .seqLatchFirst req last) ∧
    (rst = false → en = true → q.phase = .stream → req = false → i = .seqStreamIdle last) ∧
    (rst = false → en = true → q.phase = .stream → req = true → q.index ≠ c.W - 1 → i = .seqStreamAdvance) ∧
    (rst = false → en = true → q.phase = .stream → req = true → q.index = c.W - 1 → i = .seqStreamWrap) ∧
    (rst = false → en = true → q.phase = .code3 → i = .seqReservedPhase3 req last))

/-- R209: the receiver reads back each symbol's own pulse exactly for P ≥ 3, and a Marker ends low inside its period
exactly for P ≥ 5. -/
def Obligations.PulsesClassifyBack : Prop :=
  ∀ P, 1 ≤ P →
    ((∀ sym, classify P (highTicks P sym) = some sym) ↔ 3 ≤ P) ∧
    (highTicks P .marker < P ↔ 5 ≤ P)

/-- R212 (with R209, R122, R90): for P ≥ 5, RX_RESET and then the pulses of an encoded frame, from any state, leave
the receiver done with status OK, the timestamp that was encoded, and the frame's symbols. The lines are those of a
set-up with `irig_rx` only (the model's choice, log 26). -/
def Obligations.ReceiverDecodesTheEncodedStream : Prop :=
  ∀ (s : State) (t : Timestamp), 5 ≤ s.cfg.P → yearInRange t = true → fieldsInRange t = true →
    ∃ u, runLines (rxOnly rxRst :: rxStream s.cfg.P (frameOf s.cfg.W t)) s = .next u ∧
      u.rx =
        { live := true, prev := false, cnt := 0, n := s.cfg.W, syms := (frameOf s.cfg.W t).map Symbol.code
          done := true, status := .ok, ts := t.toWord }

/-- R211 for one start of its window (first sample at instruction P + 2), for every P ≥ 5 and both widths: the
receiver looped to a transmitter that sends an encoded frame ends done, with status OK, the frame's symbols and the
timestamp that was encoded. From any state. -/
def Obligations.LoopedReceiverDecodesTheFirstFrame : Prop :=
  ∀ (s : State) (t : Timestamp), 5 ≤ s.cfg.P → yearInRange t = true → fieldsInRange t = true →
    let frame := frameOf s.cfg.W t
    ∃ u, runLines
        (bothBlocks (some (txPend frame txRst)) (some rxRst) ::
          (times (s.cfg.P + 1) (bothBlocks (some txTick) none) ++ times (s.cfg.W * s.cfg.P) loopLine)) s = .next u ∧
      u.rx =
        { live := true, prev := false, cnt := 0, n := s.cfg.W, syms := frame.map Symbol.code
          done := true, status := .ok, ts := t.toWord }
end

