-- ==== Sys2Proof/Laws/Codes.lean ====
section
/-! SUPPORT. The codes and packed forms. -/

namespace Sys2Proof

@[simp] theorem Symbol.ofCode_code (x : Symbol) : Symbol.ofCode x.code = some x := by
  cases x <;> decide

theorem Symbol.ofCode_eq_some {c : SymCode} {x : Symbol} : Symbol.ofCode c = some x ↔ c = x.code := by
  revert c
  cases x <;> decide

theorem Symbol.ofCode_eq_none {c : SymCode} : Symbol.ofCode c = none ↔ c = 0b11 := by
  revert c
  decide

theorem Symbol.code_ne_three (x : Symbol) : x.code ≠ 0b11 := by
  cases x <;> decide

@[simp] theorem Phase.ofCode_code (p : Phase) : Phase.ofCode p.code = p := by
  cases p <;> decide

@[simp] theorem Phase.code_ofCode (c : BitVec 2) : (Phase.ofCode c).code = c := by
  revert c
  decide

/-- Bit i of a packed list is element i. -/
theorem packBits_testBit (bs : List Bool) (i : Nat) : (packBits bs).testBit i = bs.getD i false := by
  induction bs generalizing i with
  | nil => simp [packBits]
  | cons b bs ih =>
    cases i with
    | zero => cases b <;> simp [packBits, Nat.testBit_zero, Nat.add_mod]
    | succ i =>
      have h : (b.toNat + 2 * packBits bs) / 2 = packBits bs := by
        cases b <;> simp [Nat.add_mul_div_left]
      simp [packBits, Nat.testBit_succ, h, ih]

/-- Elements of a packed code list are its base-4 digits. -/
theorem packCodes_digit (cs : List SymCode) (i : Nat) :
    packCodes cs / 4 ^ i % 4 = (cs.getD i 0).toNat := by
  induction cs generalizing i with
  | nil => simp [packCodes]
  | cons c cs ih =>
    have hc : c.toNat < 4 := c.isLt
    cases i with
    | zero => simp [packCodes]; omega
    | succ i =>
      have h : (c.toNat + 4 * packCodes cs) / 4 = packCodes cs := by omega
      simp [packCodes, Nat.pow_succ', ← Nat.div_div_eq_div_mul, h, ih]

/-- An instance has all its W wires and no other. -/
theorem wires_getLsbD (W i : Nat) (v : Payload) : (wires W v).getLsbD i = (decide (i < W) && v.getLsbD i) := by
  simp only [wires, BitVec.getLsbD_setWidth]
  by_cases h : i < 100
  · simp [h]
  · simp [h, BitVec.getLsbD_of_ge v i (by omega)]

@[simp] theorem wires_wires (W : Nat) (v : Payload) : wires W (wires W v) = wires W v := by
  apply BitVec.eq_of_getLsbD_eq
  intro i _
  rw [wires_getLsbD, wires_getLsbD]
  cases decide (i < W) <;> simp

@[simp] theorem wires_zero (W : Nat) : wires W 0 = 0 := by
  apply BitVec.eq_of_getLsbD_eq
  intro i _
  simp [wires_getLsbD]

theorem Variant.width_cases (v : Variant) : v.width = 60 ∨ v.width = 100 := by
  cases v <;> simp [Variant.width]

/-- W is 60 or 100 (00_scope.md R7). -/
theorem Config.W_cases (c : Config) : c.W = 60 ∨ c.W = 100 := c.variant.width_cases

theorem Config.P_pos (c : Config) : 0 < c.P := Nat.succ_pos _

end Sys2Proof
end

