-- ==== Sys2Proof/Laws/Codec.lean ====
section
/-! SUPPORT. What ENCODE and DECODE can answer, once: cite these instead of unfolding. -/

namespace Sys2Proof.Machine

@[simp] theorem frameOf_length (W : Nat) (t : Timestamp) : (frameOf W t).length = W := by simp [frameOf]

theorem frameOf_getElem? {W i : Nat} (t : Timestamp) (h : i < W) : (frameOf W t)[i]? = some (encodeSymbol t i) := by
  simp [frameOf, h]

theorem encodeWord_badYear {w : TsWord} (W : Nat) (h : yearInRange (Timestamp.ofWord w) = false) :
    encodeWord W w = some (raiseEncode W .invalidYear) := by
  simp [encodeWord, h]

theorem encodeWord_valid {w : TsWord} (W : Nat) (hy : yearInRange (Timestamp.ofWord w) = true)
    (hf : fieldsInRange (Timestamp.ofWord w) = true) :
    encodeWord W w =
      some ⟨payloadOf (frameOf W (Timestamp.ofWord w)), (frameOf W (Timestamp.ofWord w)).map Symbol.code, .ok⟩ := by
  simp [encodeWord, hy, hf]

/-- ENCODE is refused exactly when the year is in range and another field is not (40_codec.md R108). -/
theorem encodeWord_eq_none {W : Nat} {w : TsWord} :
    encodeWord W w = none ↔
      yearInRange (Timestamp.ofWord w) = true ∧ fieldsInRange (Timestamp.ofWord w) = false := by
  unfold encodeWord
  cases hy : yearInRange (Timestamp.ofWord w) <;> cases hf : fieldsInRange (Timestamp.ofWord w) <;> simp [hy, hf]

/-- DECODE accepts exactly when all its checks pass, and then answers the word of the digits. -/
theorem decodeFrame_eq_ok {W : Nat} {frame : List SymCode} {w : TsWord} :
    decodeFrame W frame = ⟨w, .ok⟩ ↔
      frame.length = W ∧ (∀ i, i < W → positionOk i (frame.getD i 0) = true) ∧ digitsDecimal frame = true ∧
        fieldsInRange (timestampOf frame) = true ∧ w = (timestampOf frame).toWord := by
  unfold decodeFrame raiseDecode
  by_cases h1 : frame.length = W
  swap
  · simp [h1]
  rw [if_neg (not_not.mpr h1)]
  have hall : ((List.range W).all fun i => positionOk i (frame.getD i 0)) = true ↔
      ∀ i, i < W → positionOk i (frame.getD i 0) = true := by simp [List.all_eq_true]
  cases h2 : (List.range W).all fun i => positionOk i (frame.getD i 0) <;> rw [h2] at hall
  · have : ¬∀ i, i < W → positionOk i (frame.getD i 0) = true := fun h => absurd (hall.mpr h) (by decide)
    simp only [this, false_and, and_false]
    simp
  · have h2' : ∀ i, i < W → positionOk i (frame.getD i 0) = true := hall.mp rfl
    simp only [eq_true h2', h1, true_and]
    cases h3 : digitsDecimal frame <;> cases h4 : fieldsInRange (timestampOf frame) <;> simp [eq_comm (a := w)]

/-- DECODE's two kinds of answer (40_codec.md R120). -/
theorem decodeFrame_cases (W : Nat) (frame : List SymCode) :
    decodeFrame W frame = ⟨(timestampOf frame).toWord, .ok⟩ ∨ decodeFrame W frame = ⟨0, .malformedFrame⟩ := by
  unfold decodeFrame raiseDecode
  repeat' split
  all_goals simp

end Sys2Proof.Machine
end

