-- ==== Sys2Proof/Laws/Decode.lean ====
section
/-! SUPPORT. Which operation each formed vector selects (30_encoding.md R83 to R85). -/

namespace Sys2Proof.Machine

theorem decode_encVector (c : Config) (e : EncRegs) (rst en : Bool) (spare : BitVec 3) :
    decodeVector (encVector c e rst en spare) =
      if rst then .encReset en (encLast c e) spare
      else if !en then .encHold (encLast c e) spare
      else if encLast c e then .encTickLast spare
      else .encTick spare := by
  unfold encVector
  generalize encLast c e = last
  revert rst en last spare
  decide

/-- The operation of an enabled sequencer edge (R84; 30_encoding.md section 4). -/
def enabledSeqOp (phase : Phase) (req last : Bool) : Instr :=
  match phase, req, last with
  | .await, false, l => .seqAwaitIdle l
  | .await, true, l => .seqAwaitReq l
  | .latch, r, l => .seqLatchFirst r l
  | .stream, false, l => .seqStreamIdle l
  | .stream, true, false => .seqStreamAdvance
  | .stream, true, true => .seqStreamWrap
  | .code3, r, l => .seqReservedPhase3 r l

theorem decode_seqVector (c : Config) (q : SeqRegs) (rst en req : Bool) :
    decodeVector (seqVector c q rst en req) =
      if rst then .seqReset en req q.phase.code (seqLast c q)
      else if !en then .seqHold req q.phase.code (seqLast c q)
      else enabledSeqOp q.phase req (seqLast c q) := by
  unfold seqVector
  generalize seqLast c q = last
  generalize q.phase = p
  cases p <;> revert rst en req last <;> decide

theorem decode_rxVector (r : RxRegs) (rst valid sample ended : Bool) :
    decodeVector (rxVector r rst valid sample ended) =
      if rst then .rxReset r.done ended valid sample r.prev
      else if r.done then .rxDoneHold ended valid sample r.prev
      else if ended then .rxEnd valid sample r.prev
      else if !valid then .rxIdle sample r.prev
      else if sample then .rxHigh r.prev
      else if r.prev then .rxFall
      else .rxLow := by
  unfold rxVector
  generalize r.done = done
  generalize r.prev = prev
  revert rst valid sample ended done prev
  decide

end Sys2Proof.Machine
end

