-- ==== Sys2Proof/Laws/State.lean ====
section
/-! SUPPORT. What each update of the state does to each field, so that no proof unfolds a record update. -/

namespace Sys2Proof.Machine.State

@[simp] theorem setEnc_cfg (s : State) (e : EncRegs) : (s.setEnc e).cfg = s.cfg := rfl
@[simp] theorem setEnc_enc (s : State) (e : EncRegs) : (s.setEnc e).enc = e := rfl
@[simp] theorem setEnc_seq (s : State) (e : EncRegs) : (s.setEnc e).seq = s.seq := rfl
@[simp] theorem setEnc_rx (s : State) (e : EncRegs) : (s.setEnc e).rx = s.rx := rfl
@[simp] theorem setEnc_ports (s : State) (e : EncRegs) : (s.setEnc e).ports = s.ports := rfl
@[simp] theorem setEnc_encOut (s : State) (e : EncRegs) : (s.setEnc e).encOut = s.encOut := rfl
@[simp] theorem setEnc_decOut (s : State) (e : EncRegs) : (s.setEnc e).decOut = s.decOut := rfl
@[simp] theorem setEnc_stimulus (s : State) (e : EncRegs) : (s.setEnc e).stimulus = s.stimulus := rfl
@[simp] theorem setEnc_setEnc (s : State) (e e' : EncRegs) : (s.setEnc e).setEnc e' = s.setEnc e' := rfl
@[simp] theorem setEnc_self (s : State) : s.setEnc s.enc = s := rfl

@[simp] theorem setSeq_cfg (s : State) (q : SeqRegs) : (s.setSeq q).cfg = s.cfg := rfl
@[simp] theorem setSeq_enc (s : State) (q : SeqRegs) : (s.setSeq q).enc = s.enc := rfl
@[simp] theorem setSeq_seq (s : State) (q : SeqRegs) : (s.setSeq q).seq = q := rfl
@[simp] theorem setSeq_rx (s : State) (q : SeqRegs) : (s.setSeq q).rx = s.rx := rfl
@[simp] theorem setSeq_ports (s : State) (q : SeqRegs) : (s.setSeq q).ports = s.ports := rfl
@[simp] theorem setSeq_encOut (s : State) (q : SeqRegs) : (s.setSeq q).encOut = s.encOut := rfl
@[simp] theorem setSeq_decOut (s : State) (q : SeqRegs) : (s.setSeq q).decOut = s.decOut := rfl
@[simp] theorem setSeq_stimulus (s : State) (q : SeqRegs) : (s.setSeq q).stimulus = s.stimulus := rfl
@[simp] theorem setSeq_setSeq (s : State) (q q' : SeqRegs) : (s.setSeq q).setSeq q' = s.setSeq q' := rfl
@[simp] theorem setSeq_self (s : State) : s.setSeq s.seq = s := rfl

@[simp] theorem setRx_cfg (s : State) (r : RxRegs) : (s.setRx r).cfg = s.cfg := rfl
@[simp] theorem setRx_enc (s : State) (r : RxRegs) : (s.setRx r).enc = s.enc := rfl
@[simp] theorem setRx_seq (s : State) (r : RxRegs) : (s.setRx r).seq = s.seq := rfl
@[simp] theorem setRx_rx (s : State) (r : RxRegs) : (s.setRx r).rx = r := rfl
@[simp] theorem setRx_ports (s : State) (r : RxRegs) : (s.setRx r).ports = s.ports := rfl
@[simp] theorem setRx_encOut (s : State) (r : RxRegs) : (s.setRx r).encOut = s.encOut := rfl
@[simp] theorem setRx_decOut (s : State) (r : RxRegs) : (s.setRx r).decOut = s.decOut := rfl
@[simp] theorem setRx_stimulus (s : State) (r : RxRegs) : (s.setRx r).stimulus = s.stimulus := rfl
@[simp] theorem setRx_setRx (s : State) (r r' : RxRegs) : (s.setRx r).setRx r' = s.setRx r' := rfl
@[simp] theorem setRx_self (s : State) : s.setRx s.rx = s := rfl

@[simp] theorem setPorts_cfg (s : State) (p : Ports) : (s.setPorts p).cfg = s.cfg := rfl
@[simp] theorem setPorts_enc (s : State) (p : Ports) : (s.setPorts p).enc = s.enc := rfl
@[simp] theorem setPorts_seq (s : State) (p : Ports) : (s.setPorts p).seq = s.seq := rfl
@[simp] theorem setPorts_rx (s : State) (p : Ports) : (s.setPorts p).rx = s.rx := rfl
@[simp] theorem setPorts_ports (s : State) (p : Ports) : (s.setPorts p).ports = p := rfl
@[simp] theorem setPorts_encOut (s : State) (p : Ports) : (s.setPorts p).encOut = s.encOut := rfl
@[simp] theorem setPorts_decOut (s : State) (p : Ports) : (s.setPorts p).decOut = s.decOut := rfl
@[simp] theorem setPorts_stimulus (s : State) (p : Ports) : (s.setPorts p).stimulus = s.stimulus := rfl
@[simp] theorem setPorts_setPorts (s : State) (p p' : Ports) : (s.setPorts p).setPorts p' = s.setPorts p' := rfl
@[simp] theorem setPorts_self (s : State) : s.setPorts s.ports = s := rfl

@[simp] theorem setEncOut_cfg (s : State) (o : EncPort) : (s.setEncOut o).cfg = s.cfg := rfl
@[simp] theorem setEncOut_enc (s : State) (o : EncPort) : (s.setEncOut o).enc = s.enc := rfl
@[simp] theorem setEncOut_seq (s : State) (o : EncPort) : (s.setEncOut o).seq = s.seq := rfl
@[simp] theorem setEncOut_rx (s : State) (o : EncPort) : (s.setEncOut o).rx = s.rx := rfl
@[simp] theorem setEncOut_ports (s : State) (o : EncPort) : (s.setEncOut o).ports = s.ports := rfl
@[simp] theorem setEncOut_encOut (s : State) (o : EncPort) : (s.setEncOut o).encOut = o := rfl
@[simp] theorem setEncOut_decOut (s : State) (o : EncPort) : (s.setEncOut o).decOut = s.decOut := rfl
@[simp] theorem setEncOut_stimulus (s : State) (o : EncPort) : (s.setEncOut o).stimulus = s.stimulus := rfl
@[simp] theorem setEncOut_setEncOut (s : State) (o o' : EncPort) : (s.setEncOut o).setEncOut o' = s.setEncOut o' := rfl
@[simp] theorem setEncOut_self (s : State) : s.setEncOut s.encOut = s := rfl

@[simp] theorem setDecOut_cfg (s : State) (o : DecPort) : (s.setDecOut o).cfg = s.cfg := rfl
@[simp] theorem setDecOut_enc (s : State) (o : DecPort) : (s.setDecOut o).enc = s.enc := rfl
@[simp] theorem setDecOut_seq (s : State) (o : DecPort) : (s.setDecOut o).seq = s.seq := rfl
@[simp] theorem setDecOut_rx (s : State) (o : DecPort) : (s.setDecOut o).rx = s.rx := rfl
@[simp] theorem setDecOut_ports (s : State) (o : DecPort) : (s.setDecOut o).ports = s.ports := rfl
@[simp] theorem setDecOut_encOut (s : State) (o : DecPort) : (s.setDecOut o).encOut = s.encOut := rfl
@[simp] theorem setDecOut_decOut (s : State) (o : DecPort) : (s.setDecOut o).decOut = o := rfl
@[simp] theorem setDecOut_stimulus (s : State) (o : DecPort) : (s.setDecOut o).stimulus = s.stimulus := rfl
@[simp] theorem setDecOut_setDecOut (s : State) (o o' : DecPort) : (s.setDecOut o).setDecOut o' = s.setDecOut o' := rfl
@[simp] theorem setDecOut_self (s : State) : s.setDecOut s.decOut = s := rfl

@[simp] theorem setStimulus_cfg (s : State) (ls : List Line) : (s.setStimulus ls).cfg = s.cfg := rfl
@[simp] theorem setStimulus_enc (s : State) (ls : List Line) : (s.setStimulus ls).enc = s.enc := rfl
@[simp] theorem setStimulus_seq (s : State) (ls : List Line) : (s.setStimulus ls).seq = s.seq := rfl
@[simp] theorem setStimulus_rx (s : State) (ls : List Line) : (s.setStimulus ls).rx = s.rx := rfl
@[simp] theorem setStimulus_ports (s : State) (ls : List Line) : (s.setStimulus ls).ports = s.ports := rfl
@[simp] theorem setStimulus_encOut (s : State) (ls : List Line) : (s.setStimulus ls).encOut = s.encOut := rfl
@[simp] theorem setStimulus_decOut (s : State) (ls : List Line) : (s.setStimulus ls).decOut = s.decOut := rfl
@[simp] theorem setStimulus_stimulus (s : State) (ls : List Line) : (s.setStimulus ls).stimulus = ls := rfl
@[simp] theorem setStimulus_setStimulus (s : State) (ls ls' : List Line) : (s.setStimulus ls).setStimulus ls' = s.setStimulus ls' := rfl
@[simp] theorem setStimulus_self (s : State) : s.setStimulus s.stimulus = s := rfl

/-- Two states are equal when all their fields are. -/
theorem eq_of_fields {s t : State} (hc : s.cfg = t.cfg) (he : s.enc = t.enc) (hq : s.seq = t.seq) (hr : s.rx = t.rx)
    (hp : s.ports = t.ports) (ho : s.encOut = t.encOut) (hd : s.decOut = t.decOut) (hl : s.stimulus = t.stimulus) :
    s = t := by
  cases s
  cases t
  simp_all

end Sys2Proof.Machine.State
end

