-- ==== Sys2Proof/Laws/Ops.lean ====
section
/-! SUPPORT. What the shared operations do, once: cite these instead of unfolding. -/

namespace Sys2Proof.Machine

@[simp] theorem andThen_next (s : State) (k : State → Result) : andThen (.next s) k = k s := rfl

@[simp] theorem andThen_refused (q : Refusal) (k : State → Result) : andThen (.refused q) k = .refused q := rfl

/-- A chain that answers a next state passed through one. -/
theorem andThen_eq_next {r : Result} {k : State → Result} {t : State} :
    andThen r k = .next t ↔ ∃ u, r = .next u ∧ k u = .next t := by
  cases r with
  | next u => simp
  | fault f => cases f
  | refused q => simp

theorem encEdge_eq_next {s t : State} {f : EncRegs → EncRegs} :
    encEdge s f = .next t ↔ s.enc.live = true ∧ t = s.setEnc (f s.enc) := by
  unfold encEdge
  split <;> simp [*, eq_comm (a := t)]

theorem seqEdge_eq_next {s t : State} {f : SeqRegs → SeqRegs} :
    seqEdge s f = .next t ↔ s.seq.live = true ∧ t = s.setSeq (f s.seq) := by
  unfold seqEdge
  split <;> simp [*, eq_comm (a := t)]

theorem rxEdge_eq_next {s t : State} {f : RxRegs → RxRegs} :
    rxEdge s f = .next t ↔ s.rx.live = true ∧ t = s.setRx (f s.rx) := by
  unfold rxEdge
  split <;> simp [*, eq_comm (a := t)]

/-- Everything an enabled encoder edge can do when it answers a next state. -/
theorem encEnabledEdge_eq_next {s t : State} {f : Symbol → EncRegs → EncRegs} :
    encEnabledEdge s f = .next t ↔
      ∃ sym, Symbol.ofCode s.ports.symIn = some sym ∧ s.enc.live = true ∧ t = s.setEnc (f sym s.enc) := by
  unfold encEnabledEdge
  split
  · rename_i sym h
    simp [encEdge_eq_next, h]
  · split <;> simp_all

theorem encEdge_live {s : State} {f : EncRegs → EncRegs} (h : s.enc.live = true) :
    encEdge s f = .next (s.setEnc (f s.enc)) := by simp [encEdge, h]

theorem seqEdge_live {s : State} {f : SeqRegs → SeqRegs} (h : s.seq.live = true) :
    seqEdge s f = .next (s.setSeq (f s.seq)) := by simp [seqEdge, h]

theorem rxEdge_live {s : State} {f : RxRegs → RxRegs} (h : s.rx.live = true) :
    rxEdge s f = .next (s.setRx (f s.rx)) := by simp [rxEdge, h]

theorem encEnabledEdge_live {s : State} {f : Symbol → EncRegs → EncRegs} {sym : Symbol} (h : s.enc.live = true)
    (hs : Symbol.ofCode s.ports.symIn = some sym) :
    encEnabledEdge s f = .next (s.setEnc (f sym s.enc)) := by simp [encEnabledEdge, hs, encEdge_live h]

@[simp] theorem runVectors_nil (s : State) : runVectors [] s = .next s := rfl

@[simp] theorem runVectors_cons (w : Nat) (ws : List Nat) (s : State) :
    runVectors (w :: ws) s = andThen (runVector w s) (runVectors ws) := rfl

@[simp] theorem andThen_runVectors_nil (r : Result) : andThen r (runVectors []) = r := by
  cases r <;> rfl

/-- A nine-wire vector is decoded by the row decoder. -/
theorem decodeNat_toNat (v : OpVector) : decodeNat v.toNat = .ok (decodeVector v) := by
  simp [decodeNat, v.isLt]

theorem runVector_toNat (v : OpVector) (s : State) : runVector v.toNat s = exec (decodeVector v) s := by
  simp [runVector, decodeNat_toNat]

end Sys2Proof.Machine
end

