-- ==== Sys2Proof/Laws/Fetch.lean ====
section
/-! SUPPORT. The vectors blocks form, and that the state of `withFetchWord` forms the word asked for. -/

namespace Sys2Proof.Machine

theorem encLast_setEncLast (c : Config) (last : Bool) (e : EncRegs) : encLast c (setEncLast c last e) = last := by
  unfold setEncLast
  split
  · assumption
  · cases last <;> simp [encLast]
    split
    · rename_i h
      simp [h]
    · have := c.P_pos
      omega

theorem seqLast_setSeqBits (c : Config) (p : BitVec 2) (last : Bool) (q : SeqRegs) :
    seqLast c (setSeqBits c p last q) = last := by
  have hw := c.W_cases
  unfold setSeqBits
  simp only []
  split
  · rename_i h
    exact h
  · cases last <;> simp [seqLast]
    omega

theorem phase_setSeqBits (c : Config) (p : BitVec 2) (last : Bool) (q : SeqRegs) :
    (setSeqBits c p last q).phase.code = p := by
  unfold setSeqBits
  simp only []
  split <;> simp

theorem encVector_bits (v : OpVector) (h8 : v.getLsbD 8 = false) (h7 : v.getLsbD 7 = true) (h6 : v.getLsbD 6 = false) :
    (0b010 : BitVec 3) ++ v.extractLsb' 3 3 ++ BitVec.ofBool (v.getLsbD 2) ++ BitVec.ofBool (v.getLsbD 1)
      ++ BitVec.ofBool (v.getLsbD 0) = v := by
  revert v
  decide

theorem seqVector_bits (v : OpVector) (h8 : v.getLsbD 8 = false) (h7 : v.getLsbD 7 = true) (h6 : v.getLsbD 6 = true) :
    (0b011 : BitVec 3) ++ BitVec.ofBool (v.getLsbD 5) ++ v.extractLsb' 3 2 ++ BitVec.ofBool (v.getLsbD 2)
      ++ BitVec.ofBool (v.getLsbD 1) ++ BitVec.ofBool (v.getLsbD 0) = v := by
  revert v
  decide

theorem rxVector_bits (v : OpVector) (h8 : v.getLsbD 8 = true) (h7 : v.getLsbD 7 = false) (h6 : v.getLsbD 6 = false) :
    (0b100 : BitVec 3) ++ BitVec.ofBool (v.getLsbD 5) ++ BitVec.ofBool (v.getLsbD 4) ++ BitVec.ofBool (v.getLsbD 3)
      ++ BitVec.ofBool (v.getLsbD 2) ++ BitVec.ofBool (v.getLsbD 1) ++ BitVec.ofBool (v.getLsbD 0) = v := by
  revert v
  decide

@[simp] theorem withVectorBits_stimulus (w : Nat) (s : State) : (withVectorBits w s).stimulus = s.stimulus := by
  unfold withVectorBits
  split
  · simp only []
    split <;> rfl
  · rfl

@[simp] theorem withVectorBits_cfg (w : Nat) (s : State) : (withVectorBits w s).cfg = s.cfg := by
  unfold withVectorBits
  split
  · simp only []
    split <;> rfl
  · rfl

/-- Presenting inputs changes the ports only. -/
theorem present_eq (l : Line) (s : State) : present l s = s.setPorts (present l s).ports := by
  cases l <;> rfl

@[simp] theorem present_cfg (l : Line) (s : State) : (present l s).cfg = s.cfg := by cases l <;> rfl
@[simp] theorem present_enc (l : Line) (s : State) : (present l s).enc = s.enc := by cases l <;> rfl
@[simp] theorem present_seq (l : Line) (s : State) : (present l s).seq = s.seq := by cases l <;> rfl
@[simp] theorem present_rx (l : Line) (s : State) : (present l s).rx = s.rx := by cases l <;> rfl
@[simp] theorem present_encOut (l : Line) (s : State) : (present l s).encOut = s.encOut := by cases l <;> rfl
@[simp] theorem present_decOut (l : Line) (s : State) : (present l s).decOut = s.decOut := by cases l <;> rfl
@[simp] theorem present_stimulus (l : Line) (s : State) : (present l s).stimulus = s.stimulus := by cases l <;> rfl

/-- The block of `w`, driven alone with the registers that `withVectorBits` sets, forms the vector `w`. -/
theorem aloneVector_withVectorBits (w : Nat) (s : State) (l : Line) :
    aloneVector (present l (withVectorBits w s)) w = w := by
  by_cases hw : w < 512
  swap
  · simp [aloneVector, hw]
  obtain ⟨v, rfl⟩ : ∃ v : OpVector, w = v.toNat := ⟨BitVec.ofNat 9 w, by simp; omega⟩
  have hv : BitVec.ofNat 9 v.toNat = v := by simp
  simp only [aloneVector, withVectorBits, hw, if_true, hv, present_cfg, present_enc, present_seq, present_rx]
  rcases h8 : v.getLsbD 8 <;> rcases h7 : v.getLsbD 7 <;> rcases h6 : v.getLsbD 6 <;> simp only []
  · simp only [encVector, State.setEnc_enc, State.setEnc_cfg, encLast_setEncLast, encVector_bits v h8 h7 h6]
  · simp only [seqVector, State.setSeq_seq, State.setSeq_cfg, seqLast_setSeqBits, phase_setSeqBits,
      seqVector_bits v h8 h7 h6]
  · simp only [rxVector, State.setRx_rx, rxVector_bits v h8 h7 h6]

end Sys2Proof.Machine
end

