-- ==== Sys2Proof/Laws/Edge.lean ====
section
/-! SUPPORT. What an edge line does, in terms of the operations it selects. -/

namespace Sys2Proof.Machine

/-- An edge of `irig_tx` alone: the encoder operation, then the sequencer operation. -/
theorem step_txOnly {s : State} {d : TxDrive} {rest : List Line} (h : s.stimulus = txOnly d :: rest) :
    step s =
      andThen
        (exec (decodeVector (encVector s.cfg s.enc d.rst d.en 0))
          ((s.setStimulus rest).setPorts
            { s.ports with pendingFrame := d.pend.getD s.ports.pendingFrame, symIn := (symbolOf s.seq).code }))
        (exec (decodeVector (seqVector s.cfg s.seq d.rst d.en (requestOut s.enc d.rst d.en)))) := by
  simp only [step, h, applyLine, lineVectors, txOnly, Option.elim, txVectors, List.append_nil, runVectors_cons,
    runVector_toNat]
  congr 1
  funext u
  simp [runVector_toNat]

/-- An edge of `irig_rx` alone: the receiver operation. -/
theorem step_rxOnly {s : State} {d : RxDrive} {rest : List Line} (h : s.stimulus = rxOnly d :: rest) :
    step s =
      exec (decodeVector (rxVector s.rx d.rst d.valid (sampleLevel s d.sample) d.ended))
        ((s.setStimulus rest).setPorts { s.ports with symIn := (symbolOf s.seq).code }) := by
  simp only [step, h, applyLine, lineVectors, rxOnly, Option.elim, rxVectors, List.nil_append, runVectors_cons,
    runVector_toNat, andThen_runVectors_nil]
  simp [sampleLevel, present]

/-- An enabled, non-reset edge of the encoder half with a named symbol on `sym_in` (41_symbol_encoder.md R145,
R146), whichever of its two operations is selected. -/
theorem exec_enabledEncoder {s : State} {sym : Symbol} {spare : BitVec 3} (hl : s.enc.live = true)
    (hs : s.ports.symIn = sym.code) (hc : s.enc.cnt < s.cfg.P) :
    exec (if encLast s.cfg s.enc then .encTickLast spare else .encTick spare) s =
      .next (s.setEnc
        { live := true
          cnt := (s.enc.cnt + 1) % s.cfg.P
          level := high s.cfg.P sym s.enc.cnt
          reqQ := decide (s.enc.cnt = s.cfg.P - 1) }) := by
  have hsym : Symbol.ofCode s.ports.symIn = some sym := by rw [hs, Symbol.ofCode_code]
  by_cases h : s.enc.cnt = s.cfg.P - 1
  · have hm : (s.enc.cnt + 1) % s.cfg.P = 0 := by rw [h, Nat.sub_add_cancel s.cfg.P_pos, Nat.mod_self]
    rw [hm]
    simp [encLast, h, exec, execEncTickLast, encEnabledEdge_live hl hsym, hl]
  · have hm : (s.enc.cnt + 1) % s.cfg.P = s.enc.cnt + 1 := Nat.mod_eq_of_lt (by omega)
    simp [encLast, h, exec, execEncTick, encEnabledEdge_live hl hsym, hl, hm]

end Sys2Proof.Machine
end

