-- ==== Sys2Proof/Laws/PerInstr.lean ====
section
/-! SUPPORT. Statements about every operation as syntax, one lemma per constructor. -/

namespace Sys2Proof.Laws.RowMatch

/-- The vector of an operation is one of its own row of the opcode map (30_encoding.md section 4). -/
def Statement (i : Instr) : Prop := i.row.matches (encode i) = true ∧ i.row ∈ opTable

theorem encode (ctl : BitVec 6) : Statement (.encode ctl) := by
  revert ctl
  unfold Statement
  decide

theorem decode (ctl : BitVec 6) : Statement (.decode ctl) := by
  revert ctl
  unfold Statement
  decide

theorem encReset (en last : Bool) (spare : BitVec 3) : Statement (.encReset en last spare) := by
  revert en last spare
  unfold Statement
  decide

theorem encHold (last : Bool) (spare : BitVec 3) : Statement (.encHold last spare) := by
  revert last spare
  unfold Statement
  decide

theorem encTick (spare : BitVec 3) : Statement (.encTick spare) := by
  revert spare
  unfold Statement
  decide

theorem encTickLast (spare : BitVec 3) : Statement (.encTickLast spare) := by
  revert spare
  unfold Statement
  decide

theorem seqReset (en req : Bool) (phase : BitVec 2) (last : Bool) : Statement (.seqReset en req phase last) := by
  revert en req phase last
  unfold Statement
  decide

theorem seqHold (req : Bool) (phase : BitVec 2) (last : Bool) : Statement (.seqHold req phase last) := by
  revert req phase last
  unfold Statement
  decide

theorem seqAwaitIdle (last : Bool) : Statement (.seqAwaitIdle last) := by
  revert last
  unfold Statement
  decide

theorem seqAwaitReq (last : Bool) : Statement (.seqAwaitReq last) := by
  revert last
  unfold Statement
  decide

theorem seqLatchFirst (req last : Bool) : Statement (.seqLatchFirst req last) := by
  revert req last
  unfold Statement
  decide

theorem seqStreamIdle (last : Bool) : Statement (.seqStreamIdle last) := by
  revert last
  unfold Statement
  decide

theorem seqStreamAdvance : Statement .seqStreamAdvance := by
  unfold Statement
  decide

theorem seqStreamWrap : Statement .seqStreamWrap := by
  unfold Statement
  decide

theorem seqReservedPhase3 (req last : Bool) : Statement (.seqReservedPhase3 req last) := by
  revert req last
  unfold Statement
  decide

theorem rxReset (done ended valid sample prev : Bool) : Statement (.rxReset done ended valid sample prev) := by
  revert done ended valid sample prev
  unfold Statement
  decide

theorem rxDoneHold (ended valid sample prev : Bool) : Statement (.rxDoneHold ended valid sample prev) := by
  revert ended valid sample prev
  unfold Statement
  decide

theorem rxEnd (valid sample prev : Bool) : Statement (.rxEnd valid sample prev) := by
  revert valid sample prev
  unfold Statement
  decide

theorem rxIdle (sample prev : Bool) : Statement (.rxIdle sample prev) := by
  revert sample prev
  unfold Statement
  decide

theorem rxHigh (prev : Bool) : Statement (.rxHigh prev) := by
  revert prev
  unfold Statement
  decide

theorem rxLow : Statement .rxLow := by
  unfold Statement
  decide

theorem rxFall : Statement .rxFall := by
  unfold Statement
  decide

theorem reservedBlock5 (ctl : BitVec 6) : Statement (.reservedBlock5 ctl) := by
  revert ctl
  unfold Statement
  decide

theorem reservedBlock6 (ctl : BitVec 6) : Statement (.reservedBlock6 ctl) := by
  revert ctl
  unfold Statement
  decide

theorem reservedBlock7 (ctl : BitVec 6) : Statement (.reservedBlock7 ctl) := by
  revert ctl
  unfold Statement
  decide

end Sys2Proof.Laws.RowMatch
end

