-- ==== Sys2Proof/Laws/Run.lean ====
section
/-! SUPPORT. Runs of stimulus lines. -/

namespace Sys2Proof.Machine

@[simp] theorem times_zero (l : Line) : times 0 l = [] := rfl

@[simp] theorem times_succ (n : Nat) (l : Line) : times (n + 1) l = l :: times n l := rfl

theorem times_add (m n : Nat) (l : Line) : times (m + n) l = times m l ++ times n l :=
  List.replicate_add m n l

@[simp] theorem runLines_nil (s : State) : runLines [] s = .next (s.setStimulus []) := rfl

@[simp] theorem runLines_cons (l : Line) (ls : List Line) (s : State) :
    runLines (l :: ls) s = andThen (step (s.setStimulus [l])) (runLines ls) := rfl

/-- The state's own stimulus is put aside. -/
@[simp] theorem runLines_setStimulus (ls xs : List Line) (s : State) :
    runLines ls (s.setStimulus xs) = runLines ls s := by
  cases ls <;> rfl

theorem andThen_assoc (r : Result) (f g : State → Result) :
    andThen (andThen r f) g = andThen r fun s => andThen (f s) g := by
  cases r <;> rfl

/-- A run of two lists is the run of the first, then of the second. -/
theorem runLines_append (xs ys : List Line) (s : State) :
    runLines (xs ++ ys) s = andThen (runLines xs s) (runLines ys) := by
  induction xs generalizing s with
  | nil => simp
  | cons x xs ih =>
    simp only [List.cons_append, runLines_cons, andThen_assoc]
    congr 1
    funext u
    exact ih u

end Sys2Proof.Machine
end

