-- ==== Sys2Proof/Tests/Slice0.lean ====
section
/-! SUPPORT. The model's own tests. Expected values come from spec/95_test_vectors.md (the vector's id stands in each
docstring) or from the encodings of 30_encoding.md; none was taken from the model. The witnesses at the end show, for
each statement with hypotheses, a state and operands that meet them together. -/

open Sys2Proof Sys2Proof.Machine

namespace Sys2Proof.Tests

/-! ### Helpers -/

/-- Variant H, P = 10: W = 60, the instance most vectors are given for. -/
def h10 : State := State.resetOf ⟨.h, 9⟩

/-- The encoder half of `s` with the pre-state (`cnt`, `level`, `req_q`) and a symbol on `sym_in`. -/
def withEnc (s : State) (cnt : Nat) (level reqQ : Bool) (sym : SymCode) : State :=
  (s.setEnc ⟨true, cnt, level, reqQ⟩).setPorts { s.ports with symIn := sym }

/-- The sequencer half of `s` with the pre-state (`phase`, `index`, `fl_q`), a buffer and a pending frame. -/
def withSeq (s : State) (phase : Phase) (index : Nat) (flQ : Bool) (buf pending : Payload) : State :=
  (s.setSeq ⟨true, phase, index, buf, flQ⟩).setPorts { s.ports with pendingFrame := pending }

/-- The receiver of `s` with the pre-state (`rx_prev`, `rx_cnt`, `rx_n`, `rx_done`, `rx_status`). -/
def withRx (s : State) (prev : Bool) (cnt n : Nat) (done : Bool) (status : Status) : State :=
  s.setRx { s.rx with prev := prev, cnt := cnt, n := n, done := done, status := status }

def encOf : Result → Option (Nat × Bool × Bool)
  | .next t => some (t.enc.cnt, t.enc.level, t.enc.reqQ)
  | .fault _ => none
  | .refused _ => none

def seqOf : Result → Option (Phase × Nat × Bool × Payload)
  | .next t => some (t.seq.phase, t.seq.index, t.seq.flQ, t.seq.buf)
  | .fault _ => none
  | .refused _ => none

/-- What section 2.6 lists of the receiver: `rx_prev`, `rx_cnt`, `rx_n`, `rx_done`, `rx_status`; and `rx_ts`. -/
structure RxView where
  prev   : Bool
  cnt    : Nat
  n      : Nat
  done   : Bool
  status : Status
  ts     : TsWord
deriving DecidableEq, Repr

def rxOf : Result → Option RxView
  | .next t => some ⟨t.rx.prev, t.rx.cnt, t.rx.n, t.rx.done, t.rx.status, t.rx.ts⟩
  | .fault _ => none
  | .refused _ => none

/-- Element `i` of `rx_syms`. -/
def elementOf (i : Nat) : Result → Option SymCode
  | .next t => t.rx.syms[i]?
  | .fault _ => none
  | .refused _ => none

def encOutOf : Result → Option (Status × Payload × BitVec 200)
  | .next t => some (t.encOut.status, t.encOut.bits, symbolVector t.encOut.syms)
  | .fault _ => none
  | .refused _ => none

def decOutOf : Result → Option (Status × TsWord)
  | .next t => some (t.decOut.status, t.decOut.ts)
  | .fault _ => none
  | .refused _ => none

def refusalOf : Result → Option Refusal
  | .next _ => none
  | .fault _ => none
  | .refused q => some q

def frameOfString (text : String) : List Symbol := (frameOfChars text.toList).getD []

/-- V-C3 (60 symbols). -/
def frameC3 : List Symbol := frameOfString "_01010000_010000000_001100000_001000000_000000000_000100000_"

/-- Scenario 2 (X5, 100 symbols). -/
def scenario2 : List Symbol :=
  frameOfString
    "_00010001_000100010_001000000_100100011_100000000_011000001_000000000_000000000_000000000_000000000_"

def encodeOf (s : State) (ts : TsWord) : Result := exec (.encode 0) (s.setPorts { s.ports with tsIn := ts })

def decodeOf (s : State) (frame : List SymCode) : Result :=
  exec (.decode 0) (s.setPorts { s.ports with frameIn := frame })

/-! ### WellFormed refuses ill-formed terms -/

theorem test_block5_ill_formed : (Instr.reservedBlock5 0).wellFormed = false := by decide
theorem test_block6_ill_formed : (Instr.reservedBlock6 0b111111).wellFormed = false := by decide
theorem test_block7_ill_formed : (Instr.reservedBlock7 1).wellFormed = false := by decide
theorem test_phase3_ill_formed : (Instr.seqReservedPhase3 true false).wellFormed = false := by decide
theorem test_tick_well_formed : (Instr.encTick 0).wellFormed = true ∧ Instr.rxFall.wellFormed = true := by decide

/-! ### Decoding: vectors of 95_test_vectors.md sections 2.4 to 2.6 and 3, and vectors written from 30_encoding.md -/

/-- ENCODE 0b000 xxxxxx, DECODE 0b001 xxxxxx (T7: 0x000 to 0x03F, 0x040 to 0x07F). -/
theorem test_decode_codec :
    decodeVector 0b000000000 = .encode 0 ∧ decodeVector 0x03F = .encode 0b111111 ∧
    decodeVector 0b001000000 = .decode 0 ∧ decodeVector 0x07F = .decode 0b111111 := by decide

/-- V-E1, V-E2, V-E3, V-E4, V-E5, V-E12. -/
theorem test_decode_encoder :
    decodeVector 0x081 = .encReset false false 0 ∧ decodeVector 0x087 = .encReset true true 0 ∧
    decodeVector 0x084 = .encHold true 0 ∧ decodeVector 0x080 = .encHold false 0 ∧
    decodeVector 0x082 = .encTick 0 ∧ decodeVector 0x086 = .encTickLast 0 := by decide

/-- V-S1 to V-S9, V-S13; T3 line 610 for 0x0F2. -/
theorem test_decode_sequencer :
    decodeVector 0x0D3 = .seqReset true false 0b10 false ∧ decodeVector 0x0D0 = .seqHold false 0b10 false ∧
    decodeVector 0x0C2 = .seqAwaitIdle false ∧ decodeVector 0x0C6 = .seqAwaitReq false ∧
    decodeVector 0x0CA = .seqLatchFirst false false ∧ decodeVector 0x0D2 = .seqStreamIdle false ∧
    decodeVector 0x0F2 = .seqStreamIdle true ∧ decodeVector 0x0D6 = .seqStreamAdvance ∧
    decodeVector 0x0F6 = .seqStreamWrap ∧ decodeVector 0x0DA = .seqReservedPhase3 false false := by decide

/-- V-R1 to V-R11; T3 line 1 for 0x100; T4 line 1000 for 0x10A. -/
theorem test_decode_receiver :
    decodeVector 0x103 = .rxReset true false false false false ∧
    decodeVector 0x125 = .rxReset false true false false true ∧
    decodeVector 0x106 = .rxDoneHold true false false false ∧ decodeVector 0x10A = .rxDoneHold false true false false ∧
    decodeVector 0x104 = .rxEnd false false false ∧ decodeVector 0x13C = .rxEnd true true true ∧
    decodeVector 0x120 = .rxIdle false true ∧ decodeVector 0x100 = .rxIdle false false ∧
    decodeVector 0x138 = .rxHigh true ∧ decodeVector 0x118 = .rxHigh false ∧
    decodeVector 0x108 = .rxLow ∧ decodeVector 0x128 = .rxFall := by decide

/-- Block ids 0b101, 0b110, 0b111 (30_encoding.md R88). -/
theorem test_decode_reserved :
    decodeVector 0b101000000 = .reservedBlock5 0 ∧ decodeVector 0b110000001 = .reservedBlock6 1 ∧
    decodeVector 0b111111111 = .reservedBlock7 0b111111 := by decide

/-- The vector has nine wires: 0x1FF is the last one; the second byte holds bit 8. -/
theorem test_decode_bytes :
    (decodeBytes [0xD6, 0x00]).toOption = some .seqStreamAdvance ∧ (decodeBytes [0x28, 0x01]).toOption = some .rxFall ∧
    (decodeNat 0x1FF).toOption = some (.reservedBlock7 0b111111) ∧ (decodeNat 0x200).toOption = none := by decide

/-! ### Codec -/

/-- X4: scenario 1. -/
theorem test_encode_scenario1 :
    (encOutOf (encodeOf State.reset 0x1F81941C40)).map (fun r => (r.1, r.2.1)) = some (.ok, 0x41801010080A400) := by
  set_option maxRecDepth 8000 in decide

/-- V-C5, V-C7, V-C8, V-C9: the year check comes first; other fields out of range are refused. -/
theorem test_encode_range :
    encOutOf (encodeOf State.reset (Timestamp.toWord ⟨0, 0, 0, 1, 1999⟩)) = some (.invalidYear, 0, 0) ∧
    encOutOf (encodeOf State.reset (Timestamp.toWord ⟨60, 0, 0, 1, 1999⟩)) = some (.invalidYear, 0, 0) ∧
    refusalOf (encodeOf State.reset (Timestamp.toWord ⟨60, 0, 0, 1, 2000⟩)) = some .encodeFieldOutOfRange ∧
    refusalOf (encodeOf h10 (Timestamp.toWord ⟨0, 0, 0, 0, 2000⟩)) = some .encodeFieldOutOfRange := by
  set_option maxRecDepth 8000 in decide

/-- V-D1 (X5): scenario 2. -/
theorem test_decode_scenario2 :
    decOutOf (decodeOf State.reset (scenario2.map Symbol.code)) = some (.ok, 0x1F81DE22CB) := by
  set_option maxRecDepth 8000 in decide

/-- V-D2, V-D5, V-D8. -/
theorem test_decode_malformed :
    decOutOf (decodeOf State.reset ((scenario2.map Symbol.code).set 9 0b00)) = some (.malformedFrame, 0) ∧
    decOutOf (decodeOf State.reset ((scenario2.map Symbol.code).set 5 0b01)) = some (.malformedFrame, 0) ∧
    decOutOf (decodeOf State.reset ((scenario2.map Symbol.code).set 1 0b11)) = some (.malformedFrame, 0) := by
  set_option maxRecDepth 8000 in decide

/-- V-P2: the timestamp word and both vectors of a frame. -/
theorem test_port_words :
    Timestamp.toWord ⟨5, 4, 3, 2, 2001⟩ = 0x1F44043105 ∧ payloadOf frameC3 = 0x20000100C00814 ∧
    symbolVector (frameC3.map Symbol.code) = 0x800408000080010800508000480112 := by
  set_option maxRecDepth 8000 in decide

/-! ### Encoder half -/

/-- V-E2. -/
theorem test_encReset : encOf (exec (decodeVector 0x087) (withEnc h10 9 false true 0)) = some (0, false, false) := by
  decide

/-- V-E3: the token is kept. -/
theorem test_encHold : encOf (exec (decodeVector 0x084) (withEnc h10 9 false true 0)) = some (9, false, true) := by
  decide

/-- V-E5 to V-E8. -/
theorem test_encTick_one_zero :
    encOf (exec (decodeVector 0x082) (withEnc h10 4 true false 0b01)) = some (5, true, false) ∧
    encOf (exec (decodeVector 0x082) (withEnc h10 5 true false 0b01)) = some (6, false, false) ∧
    encOf (exec (decodeVector 0x082) (withEnc h10 1 true false 0b00)) = some (2, true, false) ∧
    encOf (exec (decodeVector 0x082) (withEnc h10 2 true false 0b00)) = some (3, false, false) := by decide

/-- V-E9 to V-E11. -/
theorem test_encTick_marker :
    encOf (exec (decodeVector 0x082) (withEnc h10 7 true false 0b10)) = some (8, true, false) ∧
    encOf (exec (decodeVector 0x082) (withEnc h10 8 true false 0b10)) = some (9, false, false) ∧
    encOf (exec (decodeVector 0x082) (withEnc h10 0 false true 0b00)) = some (1, true, false) := by decide

/-- V-E12, V-E13. -/
theorem test_encTickLast :
    encOf (exec (decodeVector 0x086) (withEnc h10 9 false false 0b10)) = some (0, false, true) ∧
    encOf (exec (decodeVector 0x086) (withEnc (State.resetOf ⟨.h, 0⟩) 0 true true 0b00)) = some (0, true, true) := by
  decide

/-- V-E14. -/
theorem test_reserved_symbol :
    refusalOf (exec (decodeVector 0x082) (withEnc h10 3 true false 0b11)) = some .symbolCode3 := by decide

/-! ### Sequencer half (V-P2 is 0x20000100C00814) -/

/-- V-S1. -/
theorem test_seqReset :
    seqOf (exec (decodeVector 0x0D3) (withSeq h10 .stream 37 true 0x200000000 1)) = some (.await, 0, false, 0) := by
  decide

/-- V-S2. -/
theorem test_seqHold :
    seqOf (exec (decodeVector 0x0D0) (withSeq h10 .stream 5 true 7 1)) = some (.stream, 5, true, 7) := by decide

/-- V-S3. -/
theorem test_seqAwaitIdle :
    seqOf (exec (decodeVector 0x0C2) (withSeq h10 .await 0 false 0 1)) = some (.await, 0, false, 0) := by decide

/-- V-S4. -/
theorem test_seqAwaitReq :
    seqOf (exec (decodeVector 0x0C6) (withSeq h10 .await 0 false 0 1)) = some (.latch, 0, false, 0) := by decide

/-- V-S5. -/
theorem test_seqLatchFirst :
    seqOf (exec (decodeVector 0x0CA) (withSeq h10 .latch 0 false 0 0x20000100C00814)) =
      some (.stream, 0, true, 0x20000100C00814) := by decide

/-- V-S6; V-S14: a changed `pending_frame` is not taken. -/
theorem test_seqStreamIdle :
    seqOf (exec (decodeVector 0x0D2) (withSeq h10 .stream 0 true 5 0)) = some (.stream, 0, false, 5) ∧
    seqOf (exec (decodeVector 0x0D2) (withSeq h10 .stream 7 false 5 9)) = some (.stream, 7, false, 5) := by decide

/-- V-S7; V-S10: no wrap at 59 when W = 100. -/
theorem test_seqStreamAdvance :
    seqOf (exec (decodeVector 0x0D6) (withSeq h10 .stream 1 false 0x20000100C00814 0)) =
      some (.stream, 2, false, 0x20000100C00814) ∧
    (decodeVector (seqVector State.defaultConfig ⟨true, .stream, 59, 0, false⟩ false true true) = .seqStreamAdvance) ∧
    seqOf (exec (decodeVector 0x0D6) (withSeq State.reset .stream 59 false 0 0)) = some (.stream, 60, false, 0) := by
  decide

/-- V-S9. -/
theorem test_seqStreamWrap :
    seqOf (exec (decodeVector 0x0F6) (withSeq h10 .stream 59 false 5 9)) = some (.stream, 0, true, 9) := by decide

/-- V-S13. -/
theorem test_seqPhase3 :
    refusalOf (exec (decodeVector 0x0DA) (withSeq h10 .code3 0 false 0 0)) = some .sequencerPhase3 := by decide

/-- V-S7, V-S8, V-S11, V-S12. -/
theorem test_symbol :
    symbolOf ⟨true, .stream, 1, 0x20000100C00814, false⟩ = .zero ∧
    symbolOf ⟨true, .stream, 2, 0x20000100C00814, false⟩ = .one ∧
    symbolOf ⟨true, .stream, 9, 0x200, false⟩ = .marker ∧
    symbolOf ⟨true, .stream, 0, 1, false⟩ = .marker ∧
    symbolOf ⟨true, .stream, 5, 0x20, false⟩ = .one := by decide

/-! ### Receiver -/

/-- V-R1, V-R2. -/
theorem test_rxReset :
    rxOf (exec (decodeVector 0x103) (withRx h10 false 0 60 true .malformedFrame)) = some ⟨false, 0, 0, false, .ok, 0⟩ ∧
    rxOf (exec (decodeVector 0x125) (withRx h10 true 4 10 false .ok)) = some ⟨false, 0, 0, false, .ok, 0⟩ := by decide

/-- V-R3. -/
theorem test_rxDoneHold :
    rxOf (exec (decodeVector 0x106) (withRx h10 false 0 60 true .ok)) = some ⟨false, 0, 60, true, .ok, 0⟩ := by decide

/-- V-R4, V-R5: the sample is not consumed. -/
theorem test_rxEnd :
    rxOf (exec (decodeVector 0x104) (withRx h10 false 0 0 false .ok)) = some ⟨false, 0, 0, true, .incompleteFrame, 0⟩ ∧
    rxOf (exec (decodeVector 0x13C) (withRx h10 true 3 12 false .ok)) =
      some ⟨true, 3, 12, true, .incompleteFrame, 0⟩ := by decide

/-- V-R6. -/
theorem test_rxIdle :
    rxOf (exec (decodeVector 0x120) (withRx h10 true 3 12 false .ok)) = some ⟨true, 3, 12, false, .ok, 0⟩ := by decide

/-- V-R7, V-R8, V-R9. -/
theorem test_rxHigh :
    rxOf (exec (decodeVector 0x138) (withRx h10 true 9 12 false .ok)) = some ⟨true, 10, 12, false, .ok, 0⟩ ∧
    rxOf (exec (decodeVector 0x138) (withRx h10 true 10 12 false .ok)) = some ⟨true, 10, 12, false, .ok, 0⟩ ∧
    rxOf (exec (decodeVector 0x118) (withRx h10 false 0 0 false .ok)) = some ⟨true, 1, 0, false, .ok, 0⟩ := by decide

/-- V-R10. -/
theorem test_rxLow :
    rxOf (exec (decodeVector 0x108) (withRx h10 false 0 4 false .ok)) = some ⟨false, 0, 4, false, .ok, 0⟩ := by decide

/-- V-R11: noise, and a One at element 12. -/
theorem test_rxFall :
    rxOf (exec (decodeVector 0x128) (withRx h10 true 1 12 false .ok)) = some ⟨false, 0, 12, false, .ok, 0⟩ ∧
    rxOf (exec (decodeVector 0x128) (withRx h10 true 7 12 false .ok)) = some ⟨false, 0, 13, false, .ok, 0⟩ ∧
    elementOf 12 (exec (decodeVector 0x128) (withRx h10 true 7 12 false .ok)) = some 0b01 := by decide

/-- The pre-state of V-R12 with the collected symbols `syms`. -/
def lastFall (syms : List SymCode) : State :=
  h10.setRx { h10.rx with prev := true, cnt := 8, n := 59, syms := syms }

/-- V-R12, V-R13: the W-th symbol. -/
theorem test_rxFall_last :
    rxOf (exec .rxFall (lastFall ((frameC3.map Symbol.code).set 59 0))) = some ⟨false, 0, 60, true, .ok, 0x1F44043105⟩ ∧
    rxOf (exec .rxFall (lastFall (((frameC3.map Symbol.code).set 59 0).set 9 0))) =
      some ⟨false, 0, 60, true, .malformedFrame, 0⟩ := by
  set_option maxRecDepth 8000 in decide

/-- The outputs in V-R12's pre-state (`rx_syms` = V-C3 whole, V-P2's `frame_syms`): `status` is meaningless, `done` 0. -/
theorem test_rxOut :
    rxOut (lastFall (frameC3.map Symbol.code)) =
      { done := false, status := 0, ts := 0, rxFrame := 0x800408000080010800508000480112, dbgRxN := 59 } := by
  set_option maxRecDepth 8000 in decide

/-! ### Reserved blocks, reset, fetch -/

/-- 30_encoding.md R88. -/
theorem test_reserved_blocks :
    refusalOf (exec (decodeVector 0x140) State.reset) = some .reservedBlock ∧
    refusalOf (exec (decodeVector 0x180) State.reset) = some .reservedBlock ∧
    refusalOf (exec (decodeVector 0x1C0) State.reset) = some .reservedBlock := by decide

/-- T1 line 1 (0x082 / 0x0C2 from the reset state): the edge takes both halves one tick on. -/
theorem test_first_tick :
    encOf (step (State.reset.setStimulus [txOnly txTick])) = some (1, true, false) ∧
    seqOf (step (State.reset.setStimulus [txOnly txTick])) = some (.await, 0, false, 0) := by decide

/-- T3 before line 610, but for the count of symbols: the last tick of the last Marker, `level` low again. -/
def loopState : State :=
  (withRx ((h10.setEnc ⟨true, 9, false, false⟩).setSeq ⟨true, .stream, 59, 0x20000100C00814, false⟩) true 8 12 false
    .ok).setStimulus [loopLine]

/-- T3 line 610: 0x086 / 0x0F2 | 0x128. The encoder's operation is the last tick, the sequencer stays, the receiver
classifies the Marker at the pre-edge `level` = 0. -/
theorem test_loop_edge :
    encOf (step loopState) = some (0, false, true) ∧
    seqOf (step loopState) = some (.stream, 59, false, 0x20000100C00814) ∧
    rxOf (step loopState) = some ⟨false, 0, 13, false, .ok, 0⟩ := by decide

/-- 70_reset_and_hazards.md R261: an edge from unreset is refused, a disabled one too. -/
theorem test_unreset :
    refusalOf (step ((h10.setEnc { h10.enc with live := false }).setStimulus [txOnly txHold])) =
      some .unresetTransmitter ∧
    refusalOf (step ((h10.setRx { h10.rx with live := false }).setStimulus [rxOnly rxIdle])) = some .unresetReceiver := by
  decide

/-- The word of RX_FALL runs RX_FALL in the step after reset: the pulse counter of the reset state is noise. -/
theorem test_withFetchWord :
    rxOf (step (State.reset.withFetchWord 9 0x128)) = some ⟨false, 0, 0, false, .ok, 0⟩ ∧
    seqOf (step (State.reset.withFetchWord 9 0x0F6)) = some (.stream, 0, true, 0) := by decide

/-! ### Witnesses: states and operands that meet the hypotheses of the statements -/

/-- The reset state with one line to apply. -/
def withLine (l : Line) : State := State.reset.setStimulus [l]

/-- The scenario-1 timestamp word (X4), in range. -/
def wordX4 : TsWord := 0x1F81941C40

/-- Clauses of StepRunsTheDecodedOperation: a nine-wire number, the first number that is none, both codec lines, no
line. -/
theorem witness_StepRunsTheDecodedOperation :
    (decodeNat (aloneVector (present (.alone 0x082 none) ((withLine (.alone 0x082 none)).setStimulus [])) 0x082)).toOption =
      some (.encTick 0) ∧
    (decodeNat (aloneVector (present (.alone 512 none) ((withLine (.alone 512 none)).setStimulus [])) 512)).toOption =
      none ∧
    (withLine (.enc wordX4)).stimulus = .enc wordX4 :: [] ∧ (withLine (.dec [])).stimulus = .dec [] :: [] ∧
    State.reset.stimulus = [] := by decide

theorem witness_StepRunsTheOperationsOfAnEdge :
    (withLine loopLine).stimulus = .edge (some txTick) (some { rxS0 with sample := .txLevel }) :: [] := by decide

theorem witness_FetchWordIsTheNextOperation :
    decodeTableWord 9 0x0D6 = some .seqStreamAdvance ∧ decodeTableWord 9 0x1FF = some (.reservedBlock7 0b111111) := by
  decide

/-- A live transmitter at the first and at the last value of `cnt`. -/
theorem witness_TransmitterEdgeIsTheSimultaneousStep :
    (withLine (txOnly txTick)).stimulus = txOnly txTick :: [] ∧ State.reset.enc.live = true ∧
    State.reset.seq.live = true ∧ State.reset.enc.cnt < State.reset.cfg.P ∧
    (withEnc h10 9 false false 0).enc.cnt < h10.cfg.P := by decide

/-- Steps that answer a next state: an edge of both blocks, a codec line, no line. -/
theorem witness_NoStepChangesTheConfiguration :
    (encOf (step (withLine loopLine))).isSome = true ∧ (encOf (step (withLine (.enc 0)))).isSome = true ∧
    (encOf (step State.reset)).isSome = true := by decide

/-- Every element of a cleared symbol buffer is Zero. -/
theorem zero_symbols (n i : Nat) : (List.replicate n (0b00 : SymCode)).getD i 0 = Symbol.zero.code := by
  by_cases h : i < n <;> simp [List.getD, h, Symbol.code]

/-- The invariants hold of the three register files of the reset state, all live. -/
theorem witness_Inv : State.reset.Inv ∧ State.reset.enc.live = true ∧ State.reset.seq.live = true ∧
    State.reset.rx.live = true := by
  refine ⟨⟨fun _ => ⟨by decide, by decide⟩, fun _ => ⟨by decide, by decide, by decide, by decide, by decide, by decide⟩,
    fun _ => ⟨by decide, by decide, by decide, by decide, by decide, by decide, by decide, by decide, ?_, by decide⟩⟩,
    rfl, rfl, rfl⟩
  intro i _
  exact zero_symbols 100 i

/-- EveryStepKeepsTheInvariants: the invariants do not read the stimulus, and the step is taken. -/
theorem witness_EveryStepKeepsTheInvariants :
    (withLine loopLine).Inv ∧ (encOf (step (withLine loopLine))).isSome = true :=
  ⟨⟨witness_Inv.1.enc, witness_Inv.1.seq, witness_Inv.1.rx⟩, by decide⟩

/-- Clauses of ElaborationBuildsOnlyLegalInstances: no name; a legal request at P = 1; a width that is not the
variant's; P = 0. -/
theorem witness_ElaborationBuildsOnlyLegalInstances :
    Variant.ofName 'C' = none ∧ Variant.ofName 'D' = some .d ∧ (60 = Variant.d.width ∧ (1 : Int) ≤ 1) ∧
    ¬(100 = Variant.d.width ∧ (1 : Int) ≤ 1) ∧ ¬(60 = Variant.d.width ∧ (1 : Int) ≤ 0) := by decide

/-- AcceptedLinesAreNeverRefused: an edge line, a codec line and a block driven alone. -/
theorem witness_AcceptedLinesAreNeverRefused :
    (withLine loopLine).Inv ∧ (present loopLine (withLine loopLine)).accepts loopLine ∧
    (present (.enc wordX4) (withLine (.enc wordX4))).accepts (.enc wordX4) ∧
    (present (.alone 319 none) (withLine (.alone 319 none))).accepts (.alone 319 none) := by
  refine ⟨⟨witness_Inv.1.enc, witness_Inv.1.seq, witness_Inv.1.rx⟩, ⟨?_, ?_⟩, ?_, ?_⟩
  · intro d _; exact Or.inr ⟨rfl, rfl⟩
  · intro d _; exact Or.inr rfl
  · right; decide
  · exact ⟨by decide, rfl, rfl, rfl, by decide, Or.inl (by decide)⟩

/-- EveryOperationWritesOnlyItsBlock: one operation of each block that answers a next state. -/
theorem witness_EveryOperationWritesOnlyItsBlock :
    (encOf (exec (.encode 0) State.reset)).isSome = true ∧ (encOf (exec (.decode 0) State.reset)).isSome = true ∧
    (encOf (exec (.encTick 0) State.reset)).isSome = true ∧ (encOf (exec .seqStreamWrap State.reset)).isSome = true ∧
    (encOf (exec .rxFall State.reset)).isSome = true := by decide

/-- Both clauses of ResetEdgeGivesTheResetTable, from a state that is not the reset state. -/
theorem witness_ResetEdgeGivesTheResetTable :
    ((withEnc h10 9 true true 0).setStimulus [txOnly txRst]).stimulus = txOnly txRst :: [] ∧ txRst.rst = true ∧
    ((withRx h10 true 4 10 false .ok).setStimulus [rxOnly rxRst]).stimulus = rxOnly rxRst :: [] ∧ rxRst.rst = true := by
  decide

/-- The clauses of UnresetBlocksRefuseAllButReset. -/
theorem witness_UnresetBlocksRefuseAllButReset :
    (((State.powerOn ⟨.h, 9⟩).setStimulus [txOnly txHold]).stimulus = txOnly txHold :: [] ∧ txHold.rst = false ∧
      ((State.powerOn ⟨.h, 9⟩).setStimulus [txOnly txHold]).enc.live = false) ∧
    (((State.powerOn ⟨.h, 9⟩).setStimulus [rxOnly rxS1]).stimulus = rxOnly rxS1 :: [] ∧ rxS1.rst = false ∧
      ((State.powerOn ⟨.h, 9⟩).setStimulus [rxOnly rxS1]).rx.live = false) ∧
    (∃ out, encodeWord (Config.mk .h 9).W (Ports.mk 0 0 wordX4 []).tsIn = some out) :=
  ⟨⟨rfl, rfl, rfl⟩, ⟨rfl, rfl, rfl⟩, ⟨_, rfl⟩⟩

/-- The hypothesis of EncoderResetAndHold, SequencerResetAndHold, SequencerAwaitsTheFirstRequest,
SequencerLatchesThePendingFrame, SequencerStreamsTheFrame, ReceiverResetHoldAndIdle, StreamEndRecordsIncompleteFrame
and SamplesCountThePulse; and that of ReservedVectorsRefusedAndSpareBitsIgnored on `live`. -/
theorem witness_live :
    State.reset.enc.live = true ∧ State.reset.seq.live = true ∧ State.reset.rx.live = true := by decide

/-- ReservedVectorsRefusedAndSpareBitsIgnored: vectors that differ in ignored bits only. -/
theorem witness_spare_bits :
    blockOf 0x000 = blockOf 0x03F ∧ blockOf 0x000 = 0b000 ∧ blockOf 0x040 = blockOf 0x07F ∧ blockOf 0x040 = 0b001 ∧
    blockOf 0x082 = 0b010 ∧ blockOf 0x0BA = 0b010 ∧
    (0x082 : OpVector).extractLsb' 0 3 = (0x0BA : OpVector).extractLsb' 0 3 := by decide

theorem witness_EncoderTicksFollowTheDutyFunction :
    (withEnc h10 8 true false 0b10).enc.live = true ∧ (withEnc h10 8 true false 0b10).ports.symIn = Symbol.marker.code := by
  decide

theorem witness_ReservedSymbolIsRefusedAtAnEnabledEdge :
    (withEnc h10 3 true false 0b11).enc.live = true ∧ (withEnc h10 3 true false 0b11).ports.symIn = 0b11 := by decide

/-- HighTicksOfABitPeriod and PulsesClassifyBack: the smallest P, the smallest that keeps the symbols apart, and the
last tick of a period. -/
theorem witness_HighTicksOfABitPeriod : 1 ≤ 1 ∧ 5 ≤ 5 ∧ 4 < 5 := by decide

/-- HeldSymbolGivesItsWaveform: one tick, and the whole bit period. -/
theorem witness_HeldSymbolGivesItsWaveform :
    h10.enc.live = true ∧ h10.enc.cnt = 0 ∧ (1 ≤ 1 ∧ 1 ≤ h10.cfg.P) ∧ (1 ≤ 10 ∧ 10 ≤ h10.cfg.P) := by decide

/-- Both clauses of UnnamedPhaseIsRefusedAtAnEnabledEdge. -/
theorem witness_UnnamedPhaseIsRefusedAtAnEnabledEdge :
    let s := withSeq h10 .code3 0 false 0 0
    s.seq.phase = .code3 ∧ s.enc.live = true ∧ s.seq.live = true ∧
    (s.setStimulus [txOnly txTick]).stimulus = txOnly txTick :: [] ∧ (txTick.rst = false ∧ txTick.en = true) ∧
    (s.setStimulus [txOnly txHold]).stimulus = txOnly txHold :: [] ∧ (txHold.rst = true ∨ txHold.en = false) :=
  ⟨rfl, rfl, rfl, rfl, ⟨rfl, rfl⟩, rfl, Or.inr rfl⟩

/-- SymbolFollowsIndexAndBuffer: a sequencer state of the invariants out of STREAM; an encoded frame, its payload in
`buf`, at the last index. -/
theorem witness_SymbolFollowsIndexAndBuffer :
    (State.reset.seq.Inv State.reset.cfg ∧ State.reset.seq.phase ≠ .stream) ∧
    (∃ out, encodeWord (Config.mk .h 9).W wordX4 = some out ∧ out.status = .ok ∧
      ∃ q : SeqRegs, q.buf = out.bits ∧ q.index = 59 ∧ q.index < (Config.mk .h 9).W) :=
  ⟨⟨witness_Inv.1.seq rfl, by decide⟩, ⟨_, rfl, rfl, ⟨true, .stream, 59, _, false⟩, rfl, rfl, by decide⟩⟩

/-- EncodedFramesKeepTheFrameInvariants: an encoded frame, its first and last position, and one of each kind. -/
theorem witness_EncodedFramesKeepTheFrameInvariants :
    (∃ out, encodeWord (Config.mk .b 9).W wordX4 = some out ∧ out.status = .ok) ∧
    isMarker 0 = true ∧ isMarker 99 = true ∧ isForcedZero 98 = true ∧ (dataAt 1).isSome = true := by
  refine ⟨⟨_, rfl, rfl⟩, ?_⟩
  decide

/-- A state just after a latch. -/
def latched : State := withSeq h10 .stream 0 true 0x200000000 0

theorem latched_inv : latched.Inv := by
  refine ⟨fun _ => ⟨by decide, by decide⟩, fun _ => ⟨by decide, by decide, by decide, by decide, by decide, by decide⟩,
    fun _ => ⟨by decide, by decide, by decide, by decide, by decide, by decide, by decide, by decide, ?_, by decide⟩⟩
  intro i _
  exact zero_symbols 60 i

/-- LatchPulseShowsForOneEnabledCycle: a latch operation; an enabled, a disabled and a reset edge after a latch. -/
theorem witness_LatchPulseShowsForOneEnabledCycle :
    latched.Inv ∧ latched.enc.live = true ∧ latched.seq.live = true ∧ latched.seq.flQ = true ∧
    txTick.rst = false ∧ txHold.rst = false ∧ txRst.rst = true ∧
    (encOf (exec (.seqLatchFirst false false) h10)).isSome = true ∧ (encOf (exec .seqStreamWrap h10)).isSome = true ∧
    (encOf (step (latched.setStimulus [txOnly txRst]))).isSome = true ∧
    (encOf (step (latched.setStimulus [txOnly txTick]))).isSome = true ∧
    (encOf (step (latched.setStimulus [txOnly txHold]))).isSome = true :=
  ⟨latched_inv, by decide⟩

/-- RequestTokenIsPresentedAndReplaced: a token pending, in AWAIT, and in STREAM at the last index and before it; a
disabled edge. -/
theorem witness_RequestTokenIsPresentedAndReplaced :
    let s := withEnc h10 0 false true 0b10
    requestOut s.enc txTick.rst txTick.en = true ∧ s.seq.phase = .await ∧
    (encOf (step (s.setStimulus [txOnly txTick]))).isSome = true ∧
    (encOf (step (s.setStimulus [txOnly txHold]))).isSome = true ∧ txHold.rst = false ∧ txHold.en = false ∧
    (encOf (step ((withSeq s .stream 59 false 0 0).setStimulus [txOnly txTick]))).isSome = true ∧
    (encOf (step ((withSeq s .stream 58 false 0 0).setStimulus [txOnly txTick]))).isSome = true := by decide

/-- BufferChangesOnlyAtALatch: a latch edge that changes the buffer, and a reset that clears it. -/
theorem witness_BufferChangesOnlyAtALatch :
    seqOf (step ((withSeq h10 .latch 0 false 0 9).setStimulus [txOnly txTick])) = some (.stream, 0, true, 9) ∧
    (withSeq h10 .latch 0 false 0 9).seq.buf = 0 ∧
    seqOf (step ((withSeq h10 .stream 5 false 9 9).setStimulus [txOnly txRst])) = some (.await, 0, false, 0) ∧
    (withSeq h10 .stream 5 false 9 9).seq.buf = 9 := by decide

/-- PendingFrameIsSampledOnlyAtALatch: an enabled edge in STREAM that is no latch, and a reset edge in LATCH. -/
theorem witness_PendingFrameIsSampledOnlyAtALatch :
    let s := withSeq h10 .stream 59 false 0 9
    let r := withSeq h10 .latch 0 false 0 9
    txTick.pend = none ∧
    ¬(txTick.rst = false ∧ txTick.en = true ∧
      (s.seq.phase = .latch ∨ (s.seq.phase = .stream ∧ s.enc.reqQ = true ∧ s.seq.index = s.cfg.W - 1))) ∧
    (encOf (step (s.setStimulus [txOnly txTick]))).isSome = true ∧
    ¬(txRst.rst = false ∧ txRst.en = true ∧
      (r.seq.phase = .latch ∨ (r.seq.phase = .stream ∧ r.enc.reqQ = true ∧ r.seq.index = r.cfg.W - 1))) ∧
    (encOf (step (r.setStimulus [txOnly txRst]))).isSome = true := by decide

/-- PauseIsExact: a run with a disabled edge between enabled ones, and the same run without it. -/
theorem witness_PauseIsExact :
    State.reset.enc.live = true ∧ State.reset.seq.live = true ∧ (∀ d ∈ [txTick, txHold, txTick], d.pend = none) ∧
    (encOf (runLines ([txTick, txHold, txTick].map txOnly) State.reset)).isSome = true ∧
    (encOf (runLines (([txTick, txHold, txTick].filter fun d => d.rst || d.en).map txOnly) State.reset)).isSome = true := by
  decide

/-- TransmitterTimeline and SingleTickTimeline at their least P and k. -/
theorem witness_TransmitterTimeline :
    2 ≤ (State.resetOf ⟨.h, 1⟩).cfg.P ∧ (State.resetOf ⟨.h, 0⟩).cfg.P = 1 ∧ 1 ≤ 1 := by decide

/-- TimestampWordHoldsItsFields at the top of every field; FrameVectorsHoldTheirElements at the last element. -/
theorem witness_port_words :
    (63 < 64 ∧ 31 < 32 ∧ 511 < 512 ∧ 4095 < 4096) ∧
    (List.replicate 100 (0b01 : SymCode)).length ≤ 100 ∧ 99 < (List.replicate 100 (0b01 : SymCode)).length ∧
    (List.replicate 100 Symbol.one).length ≤ 100 := by decide

/-- EncodeGivesTheFrameOrTheError: a word for each clause, at the bounds: years 1999 and 2100; 2000 and 2099 with the
other fields at their bounds; day 0 and day 367. -/
theorem witness_EncodeGivesTheFrameOrTheError :
    (Timestamp.ofWord (Timestamp.toWord ⟨0, 0, 0, 1, 1999⟩)).year < 2000 ∧
    2099 < (Timestamp.ofWord (Timestamp.toWord ⟨0, 0, 0, 1, 2100⟩)).year ∧
    Timestamp.ofWord (Timestamp.toWord ⟨0, 0, 0, 1, 2000⟩) = ⟨0, 0, 0, 1, 2000⟩ ∧
    Timestamp.ofWord (Timestamp.toWord ⟨59, 59, 23, 366, 2099⟩) = ⟨59, 59, 23, 366, 2099⟩ ∧
    (Timestamp.ofWord (Timestamp.toWord ⟨0, 0, 0, 0, 2000⟩)).day < 1 ∧
    366 < (Timestamp.ofWord (Timestamp.toWord ⟨0, 0, 0, 367, 2000⟩)).day := by decide

/-- DecodeAcceptsExactlyTheLegalFrames: a frame that meets every condition of `legal` (V-D1), and one that does not
(V-D2). -/
theorem witness_DecodeAcceptsExactlyTheLegalFrames :
    let F := scenario2.map Symbol.code
    let t := timestampOf F
    F.length = 100 ∧
    (∀ i, i < 100 → isMarker i = true → F.getD i 0b11 = Symbol.marker.code) ∧
    (∀ i, i < 100 → isForcedZero i = true → F.getD i 0b11 = Symbol.zero.code) ∧
    (∀ i, i < 100 → (dataAt i).isSome = true → F.getD i 0b11 = Symbol.zero.code ∨ F.getD i 0b11 = Symbol.one.code) ∧
    (∀ d, digitWidth d = 4 → readDigit F d ≤ 9) ∧
    t.sec ≤ 59 ∧ t.min ≤ 59 ∧ t.hr ≤ 23 ∧ 1 ≤ t.day ∧ t.day ≤ 366 ∧
    (isMarker 9 = true ∧ (F.set 9 0b00).getD 9 0b11 ≠ Symbol.marker.code) := by
  refine ⟨?_, ?_, ?_, ?_, ?_, ?_⟩
  · set_option maxRecDepth 8000 in decide
  · set_option maxRecDepth 8000 in decide
  · set_option maxRecDepth 8000 in decide
  · set_option maxRecDepth 8000 in decide
  · intro d
    cases d <;> set_option maxRecDepth 8000 in decide
  · set_option maxRecDepth 8000 in decide

/-- DecodeInvertsEncode, ReceiverDecodesTheEncodedStream, LoopedReceiverDecodesTheFirstFrame: the least P, and the
first and last valid timestamp. -/
theorem witness_valid_timestamps :
    5 ≤ (State.resetOf ⟨.h, 4⟩).cfg.P ∧
    yearInRange ⟨0, 0, 0, 1, 2000⟩ = true ∧ fieldsInRange ⟨0, 0, 0, 1, 2000⟩ = true ∧
    yearInRange ⟨59, 59, 23, 366, 2099⟩ = true ∧ fieldsInRange ⟨59, 59, 23, 366, 2099⟩ = true ∧
    yearInRange (Timestamp.ofWord wordX4) = true ∧ fieldsInRange (Timestamp.ofWord wordX4) = true := by decide

/-- ReceiverOutputsAreItsRegisters: the last element, and the first bit above it, of a full-length register; a reset
receiver of the invariants. -/
theorem witness_ReceiverOutputsAreItsRegisters :
    State.reset.rx.syms.length ≤ 100 ∧ 99 < State.reset.rx.syms.length ∧
    (h10.rx.syms.length ≤ 100 ∧ 2 * h10.rx.syms.length ≤ 120) ∧ (State.reset.Inv ∧ State.reset.rx.live = true) :=
  ⟨by decide, by decide, by decide, witness_Inv.1, rfl⟩

/-- DigitsSitAtTheirPositionsWithTheirWeights: the first and the last data position. -/
theorem witness_DigitsSitAtTheirPositionsWithTheirWeights :
    (dataAt 1).isSome = true ∧ (dataAt 58).isSome = true := by decide

/-- AcceptedFramesAreEncodings: a frame DECODE accepts. -/
theorem witness_AcceptedFramesAreEncodings :
    decodeFrame (Config.mk .b 9).W (scenario2.map Symbol.code) = ⟨0x1F81DE22CB, .ok⟩ := by
  set_option maxRecDepth 8000 in decide

/-- FallingEdgeClassifiesThePulse: noise, a symbol before the last, the last symbol. -/
theorem witness_FallingEdgeClassifiesThePulse :
    (withRx h10 true 1 12 false .ok).rx.live = true ∧ classify h10.cfg.P 1 = none ∧
    classify h10.cfg.P 2 = some .zero ∧ 58 + 1 < h10.cfg.W ∧ classify h10.cfg.P 8 = some .marker ∧ 59 + 1 = h10.cfg.W := by
  decide

/-- ReceiverPriorities and TransmitterOperationSelect: registers that meet each clause's conditions. -/
theorem witness_operation_select :
    (withRx h10 true 3 12 true .ok).rx.done = true ∧ h10.rx.done = false ∧ h10.rx.prev = false ∧
    (withRx h10 true 3 12 false .ok).rx.prev = true ∧
    h10.enc.cnt ≠ h10.cfg.P - 1 ∧ (withEnc h10 9 false false 0).enc.cnt = h10.cfg.P - 1 ∧
    h10.seq.phase = .await ∧ (withSeq h10 .latch 0 false 0 0).seq.phase = .latch ∧
    (withSeq h10 .stream 58 false 0 0).seq.phase = .stream ∧ (withSeq h10 .stream 58 false 0 0).seq.index ≠ h10.cfg.W - 1 ∧
    (withSeq h10 .stream 59 false 0 0).seq.index = h10.cfg.W - 1 ∧ (withSeq h10 .code3 0 false 0 0).seq.phase = .code3 := by
  decide

end Sys2Proof.Tests
end

/-! PROOF. The reset edge (10_state.md R39, 70_reset_and_hazards.md R260). The reset table is spelled as the fields of
`State.resetOf`, so that what an edge writes and what the outputs show afterwards are both said of the same values. -/

namespace Sys2Proof.Machine

/-! ### The three reset operations write the reset table -/

theorem exec_encReset (en last : Bool) (spare : BitVec 3) (s : State) :
    exec (.encReset en last spare) s = .next (s.setEnc (State.resetOf s.cfg).enc) := rfl

theorem exec_seqReset (en req : Bool) (phase : BitVec 2) (last : Bool) (s : State) :
    exec (.seqReset en req phase last) s = .next (s.setSeq (State.resetOf s.cfg).seq) := rfl

theorem exec_rxReset (done ended valid sample prev : Bool) (s : State) :
    exec (.rxReset done ended valid sample prev) s = .next (s.setRx (State.resetOf s.cfg).rx) := rfl

/-! ### The reset edges -/

/-- A reset edge of `irig_tx` selects the reset operation of both halves, whatever the state and the other inputs. -/
theorem step_txOnly_rst {s : State} {d : TxDrive} {rest : List Line} (h : s.stimulus = txOnly d :: rest)
    (hr : d.rst = true) :
    step s =
      .next (((present (txOnly d) (s.setStimulus rest)).setEnc (State.resetOf s.cfg).enc).setSeq
        (State.resetOf s.cfg).seq) := by
  rw [step_txOnly h, decode_encVector, decode_seqVector, if_pos hr, if_pos hr, exec_encReset, andThen_next,
    exec_seqReset]
  rfl

/-- A reset edge of `irig_rx` selects RX_RESET, whatever the state and the other inputs. -/
theorem step_rxOnly_rst {s : State} {d : RxDrive} {rest : List Line} (h : s.stimulus = rxOnly d :: rest)
    (hr : d.rst = true) :
    step s = .next ((present (rxOnly d) (s.setStimulus rest)).setRx (State.resetOf s.cfg).rx) := by
  rw [step_rxOnly h, decode_rxVector, if_pos hr, exec_rxReset]
  rfl

/-! ### The outputs during a reset cycle and after it -/

/-- `request` is gated by `rst` (41_symbol_encoder.md R147). -/
@[simp] theorem requestOut_rst (e : EncRegs) (en : Bool) : requestOut e true en = false := by
  simp [requestOut]

/-- `frame_latched` is gated by `rst` (42_frame_sequencer.md R167). -/
@[simp] theorem frameLatchedOut_rst (q : SeqRegs) (en : Bool) : frameLatchedOut q true en = false := by
  simp [frameLatchedOut]

/-- With the reset table in both halves of `irig_tx`, its outputs are quiet and show Marker, whatever drives it. -/
theorem txOut_setEnc_setSeq_reset (s : State) (c : Config) (rst en : Bool) :
    txOut ((s.setEnc (State.resetOf c).enc).setSeq (State.resetOf c).seq) rst en =
      { level := false, frameLatched := false, request := false, symbol := Symbol.marker.code
        dbgIndex := 0, dbgPhase := 0, dbgCnt := 0 } := rfl

theorem packCodes_replicate_zero (n : Nat) : packCodes (List.replicate n 0#2) = 0 := by
  induction n with
  | zero => rfl
  | succ n ih => simp [List.replicate_succ, packCodes, ih]

/-- With the reset table in `irig_rx`, every output is 0. -/
theorem rxOut_setRx_reset (s : State) (c : Config) :
    rxOut (s.setRx (State.resetOf c).rx) = { done := false, status := 0, ts := 0, rxFrame := 0, dbgRxN := 0 } := by
  have hf : symbolVector (State.resetOf c).rx.syms = 0 :=
    congrArg (BitVec.ofNat 200) (packCodes_replicate_zero c.W)
  rw [rxOut, State.setRx_rx, hf]
  rfl

/-- Settles O19: a reset edge runs the reset operations only, from any state, and they write the reset table. -/
theorem resetEdgeGivesTheResetTable : Obligations.ResetEdgeGivesTheResetTable := by
  constructor
  · intro s d rest h hr
    refine ⟨?_, ?_, _, step_txOnly_rst h hr, rfl, rfl, rfl, rfl, rfl, rfl, fun rst en => ?_⟩
    · rw [hr, txOut, requestOut_rst]
    · rw [hr, txOut, frameLatchedOut_rst]
    · simp [txOut_setEnc_setSeq_reset]
  · intro s d rest h hr
    exact ⟨_, step_rxOnly_rst h hr, rfl, rfl, rfl, rfl, rfl, rfl, rxOut_setRx_reset _ _⟩

end Sys2Proof.Machine

/-! PROOF. The operation vector and the packed forms (30_encoding.md): what a vector of each block decodes to, the rows
of the opcode map (R87), the reserved vectors and the ignored bits (R88), the frame vectors (R72, R73), the codes. -/

namespace Sys2Proof.Machine

/-! ### Frame vectors hold their elements (R72, R73) -/

theorem packCodes_lt (cs : List SymCode) : packCodes cs < 4 ^ cs.length := by
  induction cs with
  | nil => simp [packCodes]
  | cons c cs ih =>
    have hc : c.toNat < 4 := c.isLt
    simp only [packCodes, List.length_cons, Nat.pow_succ']
    omega

/-- A frame of up to 100 symbols fits the 200 wires of a symbol vector. -/
theorem symbolVector_toNat {cs : List SymCode} (h : cs.length ≤ 100) : (symbolVector cs).toNat = packCodes cs := by
  have hlt : packCodes cs < 2 ^ 200 :=
    calc packCodes cs < 4 ^ cs.length := packCodes_lt cs
      _ ≤ 4 ^ 100 := Nat.pow_le_pow_right (by decide) h
      _ = 2 ^ 200 := Nat.pow_mul 2 2 100 |>.symm
  rw [symbolVector, BitVec.toNat_ofNat, Nat.mod_eq_of_lt hlt]

/-- R73; past the last element the vector holds zeros. -/
theorem symbolVector_extractLsb' {cs : List SymCode} (h : cs.length ≤ 100) (i : Nat) :
    (symbolVector cs).extractLsb' (2 * i) 2 = cs.getD i 0 := by
  apply BitVec.eq_of_toNat_eq
  rw [BitVec.extractLsb'_toNat, symbolVector_toNat h, Nat.shiftRight_eq_div_pow, Nat.pow_mul]
  exact packCodes_digit cs i

/-- R72; bits past the frame's end, and past the 100 wires, are 0. -/
theorem payloadOf_getLsbD {frame : List Symbol} (h : frame.length ≤ 100) (i : Nat) :
    (payloadOf frame).getLsbD i = decide (frame[i]? = some .one) := by
  rw [payloadOf, BitVec.getLsbD_ofNat, packBits_testBit]
  by_cases hi : i < frame.length
  · have h100 : i < 100 := by omega
    simp [hi, h100, beq_eq_decide]
  · simp [hi]

/-- Settles O41: an element of a symbol vector is a base-4 digit of the packed number, a bit of a payload vector a
binary one. -/
theorem frameVectorsHoldTheirElements : Obligations.FrameVectorsHoldTheirElements := by
  constructor
  · intro codes i hlen hi
    rw [symbolVector_extractLsb' hlen, List.getD_eq_getElem _ _ hi, List.getD_eq_getElem _ _ hi]
  · intro frame i hlen
    exact payloadOf_getLsbD hlen i

/-! ### Every vector matches exactly its row (R87) -/

/-- The encoder undoes the decoder: the operands keep every control bit. -/
theorem encode_decodeVector : ∀ v : OpVector, encode (decodeVector v) = v := by decide

/-- The vector of an operation is one of its own row, and the row is in the map: the per-operation lemmas together. -/
theorem rowMatch (i : Instr) : Laws.RowMatch.Statement i := by
  cases i with
  | encode ctl => exact Laws.RowMatch.encode ctl
  | decode ctl => exact Laws.RowMatch.decode ctl
  | encReset en last spare => exact Laws.RowMatch.encReset en last spare
  | encHold last spare => exact Laws.RowMatch.encHold last spare
  | encTick spare => exact Laws.RowMatch.encTick spare
  | encTickLast spare => exact Laws.RowMatch.encTickLast spare
  | seqReset en req phase last => exact Laws.RowMatch.seqReset en req phase last
  | seqHold req phase last => exact Laws.RowMatch.seqHold req phase last
  | seqAwaitIdle last => exact Laws.RowMatch.seqAwaitIdle last
  | seqAwaitReq last => exact Laws.RowMatch.seqAwaitReq last
  | seqLatchFirst req last => exact Laws.RowMatch.seqLatchFirst req last
  | seqStreamIdle last => exact Laws.RowMatch.seqStreamIdle last
  | seqStreamAdvance => exact Laws.RowMatch.seqStreamAdvance
  | seqStreamWrap => exact Laws.RowMatch.seqStreamWrap
  | seqReservedPhase3 req last => exact Laws.RowMatch.seqReservedPhase3 req last
  | rxReset done ended valid sample prev => exact Laws.RowMatch.rxReset done ended valid sample prev
  | rxDoneHold ended valid sample prev => exact Laws.RowMatch.rxDoneHold ended valid sample prev
  | rxEnd valid sample prev => exact Laws.RowMatch.rxEnd valid sample prev
  | rxIdle sample prev => exact Laws.RowMatch.rxIdle sample prev
  | rxHigh prev => exact Laws.RowMatch.rxHigh prev
  | rxLow => exact Laws.RowMatch.rxLow
  | rxFall => exact Laws.RowMatch.rxFall
  | reservedBlock5 ctl => exact Laws.RowMatch.reservedBlock5 ctl
  | reservedBlock6 ctl => exact Laws.RowMatch.reservedBlock6 ctl
  | reservedBlock7 ctl => exact Laws.RowMatch.reservedBlock7 ctl

theorem row_decodeVector_mem (v : OpVector) : (decodeVector v).row ∈ opTable :=
  (rowMatch (decodeVector v)).2

theorem row_decodeVector_matches (v : OpVector) : (decodeVector v).row.matches v = true := by
  have h := (rowMatch (decodeVector v)).1
  rwa [encode_decodeVector] at h

/-- Two rows that share a vector agree on the bits that both masks keep. -/
theorem rows_agree_of_matches {r q : OpRow} {v : OpVector} (hr : r.matches v = true) (hq : q.matches v = true) :
    r.pattern &&& q.mask = q.pattern &&& r.mask := by
  rw [OpRow.matches, beq_iff_eq] at hr hq
  rw [← hr, ← hq, BitVec.and_assoc, BitVec.and_assoc, BitVec.and_comm r.mask]

/-- Different rows of the map disagree on a bit that both masks keep. -/
theorem opTable_eq_of_agree :
    ∀ r ∈ opTable, ∀ q ∈ opTable, r.pattern &&& q.mask = q.pattern &&& r.mask → r = q := by decide

theorem opTable_nodup : opTable.Nodup := by decide

/-- Settles O2: the decoded operation's row is in the map and matches; rows that share a vector are equal; no row
stands in the map twice. -/
theorem everyVectorMatchesExactlyItsRow : Obligations.EveryVectorMatchesExactlyItsRow := by
  intro v
  have hmem := row_decodeVector_mem v
  have hmatch := row_decodeVector_matches v
  have honly : ∀ r ∈ opTable, r.matches v = decide (r = (decodeVector v).row) := by
    intro r hr
    rw [Bool.eq_iff_iff, decide_eq_true_iff]
    constructor
    · intro h
      exact opTable_eq_of_agree r hr _ hmem (rows_agree_of_matches h hmatch)
    · rintro rfl
      exact hmatch
  rw [List.filter_congr honly, List.filter_eq, List.count_eq_one_of_mem opTable_nodup hmem]
  rfl

/-! ### Reserved vectors and ignored control bits (R83, R86, R88) -/

/-- Bits 8, 7 and 6 of a vector are its block id (R82). -/
theorem getLsbD_of_blockOf_eq {v : OpVector} {b : BitVec 3} (h : blockOf v = b) :
    v.getLsbD 8 = b.getLsbD 2 ∧ v.getLsbD 7 = b.getLsbD 1 ∧ v.getLsbD 6 = b.getLsbD 0 := by
  subst h
  simp [blockOf]

theorem decodeVector_block0 {v : OpVector} (h : blockOf v = 0b000) : decodeVector v = .encode (v.extractLsb' 0 6) := by
  obtain ⟨h8, h7, h6⟩ := getLsbD_of_blockOf_eq h
  rw [decodeVector, h8, h7, h6]
  rfl

theorem decodeVector_block1 {v : OpVector} (h : blockOf v = 0b001) : decodeVector v = .decode (v.extractLsb' 0 6) := by
  obtain ⟨h8, h7, h6⟩ := getLsbD_of_blockOf_eq h
  rw [decodeVector, h8, h7, h6]
  rfl

theorem decodeVector_block2 {v : OpVector} (h : blockOf v = 0b010) : decodeVector v = decodeEncoder v := by
  obtain ⟨h8, h7, h6⟩ := getLsbD_of_blockOf_eq h
  rw [decodeVector, h8, h7, h6]
  rfl

/-- Of its control bits the encoder half reads `rst`, `en` and `last` only (R83). -/
theorem exec_decodeEncoder_congr {v w : OpVector} (h0 : v.getLsbD 0 = w.getLsbD 0) (h1 : v.getLsbD 1 = w.getLsbD 1)
    (h2 : v.getLsbD 2 = w.getLsbD 2) (s : State) : exec (decodeEncoder v) s = exec (decodeEncoder w) s := by
  simp only [decodeEncoder, h0, h1, h2]
  cases w.getLsbD 0 with
  | true => rfl
  | false =>
    cases w.getLsbD 1 with
    | false => rfl
    | true => cases w.getLsbD 2 <;> rfl

theorem exec_seqReservedPhase3_live {s : State} (req last : Bool) (h : s.seq.live = true) :
    exec (.seqReservedPhase3 req last) s = .refused .sequencerPhase3 := by
  simp [exec, execSeqReservedPhase3, h]

theorem exec_seqReservedPhase3_unreset {s : State} (req last : Bool) (h : s.seq.live = false) :
    exec (.seqReservedPhase3 req last) s = .refused .unresetTransmitter := by
  simp [exec, execSeqReservedPhase3, h]

/-- Settles O5: no reserved meaning answers a next state, and no meaning takes an ignored bit. -/
theorem reservedVectorsRefusedAndSpareBitsIgnored : Obligations.ReservedVectorsRefusedAndSpareBitsIgnored := by
  refine ⟨fun _ _ => rfl, fun _ _ => rfl, fun _ _ => rfl, ?phase3Live, ?phase3, ?codec, ?encoder⟩
  case phase3Live =>
    intro req last s hl
    exact exec_seqReservedPhase3_live req last hl
  case phase3 =>
    intro req last s
    cases hl : s.seq.live with
    | true => exact ⟨_, exec_seqReservedPhase3_live req last hl⟩
    | false => exact ⟨_, exec_seqReservedPhase3_unreset req last hl⟩
  case codec =>
    intro v w hvw hv s
    rcases hv with hv | hv
    · rw [decodeVector_block0 hv, decodeVector_block0 (hvw ▸ hv)]
      rfl
    · rw [decodeVector_block1 hv, decodeVector_block1 (hvw ▸ hv)]
      rfl
  case encoder =>
    intro v w hv hw hlow s
    have hbit : ∀ i, i < 3 → v.getLsbD i = w.getLsbD i := by
      intro i hi
      simpa [hi] using congrArg (fun x => x.getLsbD i) hlow
    rw [decodeVector_block2 hv, decodeVector_block2 hw]
    exact exec_decodeEncoder_congr (hbit 0 (by decide)) (hbit 1 (by decide)) (hbit 2 (by decide)) s

/-! ### The codes (R70, R71, R76, R77) -/

/-- Settles O6: the code tables, and `Symbol.ofCode_eq_none` for the reserved symbol code. -/
theorem codesAreThoseOfTheSpec : Obligations.CodesAreThoseOfTheSpec :=
  ⟨⟨rfl, rfl, rfl⟩, fun _ => Symbol.ofCode_eq_none, ⟨rfl, rfl, rfl⟩, ⟨rfl, rfl, rfl, rfl, rfl⟩⟩

end Sys2Proof.Machine

/-! PROOF. The frame layout (40_codec.md R101 to R104, R109) and the digits of a frame (R110, R115). -/

namespace Sys2Proof.Machine

/-! ### Marker, forced-zero and data positions (R101, R103, R104) -/

/-- Settles O39: each list is the filter of its 60 or 100 indices, computed. -/
theorem layoutListsThePositions : Obligations.LayoutListsThePositions :=
  ⟨by decide, by decide, by decide, by decide, by decide⟩

/-- A data position lies in its digit, and the last digit ends before index 59. -/
theorem lt_of_dataAt_isSome {i : Nat} (h : (dataAt i).isSome = true) : i < 59 := by
  rw [dataAt, Option.isSome_map, List.find?_isSome] at h
  obtain ⟨d, -, hd⟩ := h
  obtain ⟨-, hlt⟩ : digitStart d ≤ i ∧ i < digitStart d + digitWidth d := by simpa using hd
  have hend : digitStart d + digitWidth d ≤ 59 := by cases d <;> decide
  omega

/-- No digit covers a marker position. -/
theorem isMarker_eq_false_of_dataAt {i : Nat} {p : Digit × Nat} (h : dataAt i = some p) : isMarker i = false := by
  have disjoint : ∀ j < 59, (dataAt j).isSome = true → isMarker j = false := by decide
  have hsome : (dataAt i).isSome = true := Option.isSome_of_eq_some h
  exact disjoint i (lt_of_dataAt_isSome hsome) hsome

/-- The data positions, listed, at every index (R109: those of both widths are the same). -/
theorem mem_of_dataAt_isSome {i : Nat} (h : (dataAt i).isSome = true) :
    i ∈ [1, 2, 3, 4, 6, 7, 8, 10, 11, 12, 13, 15, 16, 17, 20, 21, 22, 23, 25, 26] ∨
    i ∈ [30, 31, 32, 33, 35, 36, 37, 38, 40, 41, 50, 51, 52, 53, 55, 56, 57, 58] := by
  have hmem : i ∈ (List.range 100).filter fun j => (dataAt j).isSome :=
    List.mem_filter.mpr ⟨List.mem_range.mpr (by have := lt_of_dataAt_isSome h; omega), h⟩
  obtain ⟨-, -, -, -, hdata⟩ := layoutListsThePositions
  rw [hdata] at hmem
  exact List.mem_append.mp hmem

/-! ### The digits of a frame (R115) -/

/-- 1 where the frame holds One, else 0. -/
def oneAt (frame : List SymCode) (i : Nat) : Nat := if frame.getD i 0 = Symbol.one.code then 1 else 0

/-- R115 as a weighted sum. -/
theorem readDigit_eq_sum (frame : List SymCode) (d : Digit) :
    readDigit frame d =
      ((List.range (digitWidth d)).map fun k => digitWeight d k * oneAt frame (digitStart d + k)).sum := by
  simp only [readDigit, oneAt, mul_ite, mul_one, mul_zero]

theorem readDigit_width2 (frame : List SymCode) {d : Digit} (hw : digitWidth d = 2) :
    readDigit frame d = 2 * oneAt frame (digitStart d) + oneAt frame (digitStart d + 1) := by
  simp [readDigit_eq_sum, digitWeight, hw, List.range_succ]

theorem readDigit_width3 (frame : List SymCode) {d : Digit} (hw : digitWidth d = 3) :
    readDigit frame d =
      4 * oneAt frame (digitStart d) + 2 * oneAt frame (digitStart d + 1) + oneAt frame (digitStart d + 2) := by
  simp [readDigit_eq_sum, digitWeight, hw, List.range_succ, Nat.add_assoc]

theorem readDigit_width4 (frame : List SymCode) {d : Digit} (hw : digitWidth d = 4) :
    readDigit frame d =
      8 * oneAt frame (digitStart d) + 4 * oneAt frame (digitStart d + 1) + 2 * oneAt frame (digitStart d + 2) +
        oneAt frame (digitStart d + 3) := by
  simp [readDigit_eq_sum, digitWeight, hw, List.range_succ, Nat.add_assoc]

/-- The weights of a digit's positions are the powers of two below its width. -/
theorem sum_digitWeight (d : Digit) :
    ((List.range (digitWidth d)).map (digitWeight d)).sum = 2 ^ digitWidth d - 1 := by
  cases d <;> rfl

/-- A digit of w bits is at most the sum of its weights, 2^w - 1. -/
theorem readDigit_le (frame : List SymCode) (d : Digit) : readDigit frame d ≤ 2 ^ digitWidth d - 1 := by
  rw [← sum_digitWeight, readDigit]
  apply List.sum_le_sum
  intro k _
  split <;> omega

/-- Settles O57: the table of R102 and R103 computed, each digit read by the lemma of its width. -/
theorem digitsSitAtTheirPositionsWithTheirWeights : Obligations.DigitsSitAtTheirPositionsWithTheirWeights := by
  refine ⟨by decide, by decide, by decide, by decide, by decide, by decide, by decide, by decide, by decide,
    by decide, by decide, fun i => mem_of_dataAt_isSome, fun F => ?read, readDigit_le, fun F => ⟨rfl, rfl, rfl, rfl, rfl⟩⟩
  case read =>
    exact ⟨readDigit_width4 F rfl, readDigit_width3 F rfl, readDigit_width4 F rfl, readDigit_width3 F rfl,
      readDigit_width4 F rfl, readDigit_width2 F rfl, readDigit_width4 F rfl, readDigit_width4 F rfl,
      readDigit_width2 F rfl, readDigit_width4 F rfl, readDigit_width4 F rfl⟩

end Sys2Proof.Machine

/-! PROOF. The codec (40_codec.md): the ranges of the fields (R107, R108, R117), the symbols of an encoded frame (R100,
R123), what ENCODE answers (R105 to R108), which frames DECODE accepts (R111 to R118). -/

namespace Sys2Proof

/-- The codes of R70 tell the symbols apart, since `Symbol.ofCode` reads them back. -/
theorem Symbol.code_inj {x y : Symbol} : x.code = y.code ↔ x = y := by
  rw [← Symbol.ofCode_eq_some, Symbol.ofCode_code, Option.some_inj, eq_comm]

end Sys2Proof

namespace Sys2Proof.Machine

/-! ### The range checks (R107, R108, R116, R117) -/

theorem yearInRange_iff {t : Timestamp} : yearInRange t = true ↔ 2000 ≤ t.year ∧ t.year ≤ 2099 := by
  simp [yearInRange]

theorem fieldsInRange_iff {t : Timestamp} :
    fieldsInRange t = true ↔ t.sec ≤ 59 ∧ t.min ≤ 59 ∧ t.hr ≤ 23 ∧ 1 ≤ t.day ∧ t.day ≤ 366 := by
  simp [fieldsInRange, and_assoc]

theorem digitsDecimal_iff {frame : List SymCode} :
    digitsDecimal frame = true ↔ ∀ d, digitWidth d = 4 → readDigit frame d ≤ 9 := by
  have fourBits : ∀ d, d ∈ [Digit.secU, .minU, .hrU, .dayU, .dayT, .yrU, .yrT] ↔ digitWidth d = 4 := by
    intro d
    cases d <;> decide
  simp only [digitsDecimal, List.all_eq_true, fourBits, decide_eq_true_eq]

/-- R118: two decimal digits after 2000 stay in the century that ENCODE takes. -/
theorem yearInRange_timestampOf {frame : List SymCode} (h : digitsDecimal frame = true) :
    yearInRange (timestampOf frame) = true := by
  have hU : readDigit frame .yrU ≤ 9 := digitsDecimal_iff.mp h .yrU rfl
  have hT : readDigit frame .yrT ≤ 9 := digitsDecimal_iff.mp h .yrT rfl
  rw [yearInRange_iff]
  simp only [timestampOf]
  omega

/-! ### What a position may hold (R112, R113, R114) -/

theorem positionOk_iff {i : Nat} {c : SymCode} :
    positionOk i c = true ↔
      (isMarker i = true → c = Symbol.marker.code) ∧
      (isForcedZero i = true → c = Symbol.zero.code) ∧
      ((dataAt i).isSome = true → c = Symbol.zero.code ∨ c = Symbol.one.code) := by
  cases hd : dataAt i with
  | some p =>
    have hm : isMarker i = false := isMarker_eq_false_of_dataAt hd
    simp [positionOk, isForcedZero, hm, hd]
  | none => cases hm : isMarker i <;> simp [positionOk, isForcedZero, hm, hd]

/-! ### The symbols of an encoded frame (R100) -/

theorem encodeSymbol_marker (t : Timestamp) {i : Nat} (h : isMarker i = true) : encodeSymbol t i = .marker := by
  simp [encodeSymbol, h]

theorem encodeSymbol_data (t : Timestamp) {i : Nat} {d : Digit} {wt : Nat} (h : dataAt i = some (d, wt)) :
    encodeSymbol t i = if digitOf t d / wt % 2 = 1 then .one else .zero := by
  have hm : isMarker i = false := isMarker_eq_false_of_dataAt h
  simp [encodeSymbol, hm, h]

theorem encodeSymbol_zero (t : Timestamp) {i : Nat} (hm : isMarker i = false) (h : dataAt i = none) :
    encodeSymbol t i = .zero := by
  simp [encodeSymbol, hm, h]

theorem positionOk_encodeSymbol (t : Timestamp) (i : Nat) : positionOk i (encodeSymbol t i).code = true := by
  cases hd : dataAt i with
  | some p =>
    have hm : isMarker i = false := isMarker_eq_false_of_dataAt hd
    rw [encodeSymbol_data t hd]
    split <;> simp [positionOk, hm, hd]
  | none =>
    cases hm : isMarker i with
    | true => simp [positionOk, hm, encodeSymbol_marker t hm]
    | false => simp [positionOk, hm, hd, encodeSymbol_zero t hm hd]

theorem frameOf_codes_getD {W i : Nat} (t : Timestamp) (h : i < W) (c : SymCode) :
    ((frameOf W t).map Symbol.code).getD i c = (encodeSymbol t i).code := by
  simp [List.getD_eq_getElem?_getD, frameOf_getElem? t h]

/-- ENCODE answers OK only with the frame of a timestamp in range. -/
theorem encodeWord_eq_ok {W : Nat} {w : TsWord} {out : EncPort} (h : encodeWord W w = some out)
    (hok : out.status = .ok) :
    out = ⟨payloadOf (frameOf W (Timestamp.ofWord w)), (frameOf W (Timestamp.ofWord w)).map Symbol.code, .ok⟩ := by
  cases hy : yearInRange (Timestamp.ofWord w) with
  | false =>
    obtain rfl : raiseEncode W .invalidYear = out := Option.some.inj ((encodeWord_badYear W hy).symm.trans h)
    cases hok
  | true =>
    cases hf : fieldsInRange (Timestamp.ofWord w) with
    | false => simp [encodeWord_eq_none.mpr ⟨hy, hf⟩] at h
    | true => exact Option.some.inj (h.symm.trans (encodeWord_valid W hy hf))

/-- Settles O44: every symbol ENCODE chooses passes DECODE's check of its position. -/
theorem encodedFramesKeepTheFrameInvariants : Obligations.EncodedFramesKeepTheFrameInvariants := by
  intro c w out h hok i hi
  rw [encodeWord_eq_ok h hok, frameOf_codes_getD _ hi]
  exact positionOk_iff.mp (positionOk_encodeSymbol _ i)

/-! ### ENCODE (R105 to R108) -/

theorem exec_encode_some (ctl : BitVec 6) {s : State} {out : EncPort} (h : encodeWord s.cfg.W s.ports.tsIn = some out) :
    exec (.encode ctl) s = .next (s.setEncOut out) := by
  simp [exec, execEncode, h]

theorem exec_encode_none (ctl : BitVec 6) {s : State} (h : encodeWord s.cfg.W s.ports.tsIn = none) :
    exec (.encode ctl) s = .refused .encodeFieldOutOfRange := by
  simp [exec, execEncode, h]

/-- R119 read through the symbol vector. -/
theorem payloadOf_frameOf_getLsbD {W : Nat} (hW : W ≤ 100) (t : Timestamp) (i : Nat) :
    (payloadOf (frameOf W t)).getLsbD i =
      (decide (i < W) && decide (((frameOf W t).map Symbol.code).getD i 0 = Symbol.one.code)) := by
  rw [payloadOf_getLsbD (by simpa using hW)]
  by_cases hi : i < W
  · rw [frameOf_getElem? t hi, frameOf_codes_getD t hi]
    simp [hi, Symbol.code_inj]
  · simp [hi, frameOf]

/-- Settles O42: the year check, then the frame of the digits, or the refusal. -/
theorem encodeGivesTheFrameOrTheError : Obligations.EncodeGivesTheFrameOrTheError := by
  intro ctl s t
  refine ⟨fun hy => ?badYear, fun hy hy' hsec hmin hhr hday hday' => ?valid, fun hy hy' hf => ?refused⟩
  case badYear =>
    have hr : yearInRange t = false := by
      rw [Bool.eq_false_iff, Ne, yearInRange_iff]
      omega
    exact exec_encode_some ctl (encodeWord_badYear _ hr)
  case valid =>
    have hr : yearInRange t = true := yearInRange_iff.mpr ⟨hy, hy'⟩
    have hf : fieldsInRange t = true := fieldsInRange_iff.mpr ⟨hsec, hmin, hhr, hday, hday'⟩
    have hW : s.cfg.W ≤ 100 := by have := s.cfg.W_cases; omega
    refine ⟨_, exec_encode_some ctl (encodeWord_valid _ hr hf), rfl, by simp, fun i hi => ?_,
      payloadOf_frameOf_getLsbD hW t⟩
    rw [frameOf_codes_getD _ hi]
    cases hm : isMarker i with
    | true => rw [encodeSymbol_marker _ hm]
    | false =>
      cases hd : dataAt i with
      | none => rw [encodeSymbol_zero _ hm hd]
      | some p =>
        rw [encodeSymbol_data _ hd, apply_ite Symbol.code]
        rfl
  case refused =>
    have hr : yearInRange t = true := yearInRange_iff.mpr ⟨hy, hy'⟩
    have hf' : fieldsInRange t = false := by
      rw [Bool.eq_false_iff, Ne, fieldsInRange_iff]
      omega
    exact exec_encode_none ctl (encodeWord_eq_none.mpr ⟨hr, hf'⟩)

/-! ### DECODE (R111 to R118) -/

/-- DECODE's checks in the words of R112, R113 and R114; past the checked length the default element is not read. -/
theorem positionsOk_iff {W : Nat} {frame : List SymCode} (hlen : frame.length = W) :
    (∀ i, i < W → positionOk i (frame.getD i 0) = true) ↔
      (∀ i, i < W → isMarker i = true → frame.getD i 0b11 = Symbol.marker.code) ∧
      (∀ i, i < W → isForcedZero i = true → frame.getD i 0b11 = Symbol.zero.code) ∧
      (∀ i, i < W → (dataAt i).isSome = true →
        frame.getD i 0b11 = Symbol.zero.code ∨ frame.getD i 0b11 = Symbol.one.code) := by
  have hget : ∀ i, i < W → frame.getD i 0 = frame.getD i 0b11 := by
    intro i hi
    rw [List.getD_eq_getElem _ _ (hlen ▸ hi), List.getD_eq_getElem _ _ (hlen ▸ hi)]
  simp only [← forall_and]
  refine forall₂_congr fun i hi => ?_
  rw [hget i hi, positionOk_iff]

/-- Settles O43: the checks of `decodeFrame` are the conditions of R111 to R117, and it has no third answer. -/
theorem decodeAcceptsExactlyTheLegalFrames : Obligations.DecodeAcceptsExactlyTheLegalFrames := by
  intro ctl s
  refine ⟨rfl, ?_⟩
  intro F W t legal
  have accepts : decodeFrame W F = ⟨t.toWord, .ok⟩ ↔ legal := by
    rw [decodeFrame_eq_ok, digitsDecimal_iff, fieldsInRange_iff]
    refine and_congr_right fun hlen => ?_
    rw [positionsOk_iff hlen]
    simp only [and_assoc, and_true, t]
  refine ⟨fun h => ⟨accepts.mpr h, yearInRange_iff.mp (yearInRange_timestampOf ?_)⟩, fun h => ?_⟩
  · obtain ⟨-, -, hdec, -, -⟩ := decodeFrame_eq_ok.mp (accepts.mpr h)
    exact hdec
  · exact (decodeFrame_cases W F).resolve_left fun hok => h (accepts.mp hok)

end Sys2Proof.Machine

/-! PROOF. The symbol encoder (41_symbol_encoder.md): the duty function and its high ticks (R141, R142), the four
operations of the half (R143 to R146) and the reserved symbol code (R148). -/

namespace Sys2Proof.Machine

/-! ### The high ticks of a bit period (R141, R142) -/

@[simp] theorem high_zero_iff {P c : Nat} : high P .zero c = true ↔ 5 * c < P := decide_eq_true_iff

@[simp] theorem high_one_iff {P c : Nat} : high P .one c = true ↔ 2 * c < P := decide_eq_true_iff

@[simp] theorem high_marker_iff {P c : Nat} : high P .marker c = true ↔ 5 * c < 4 * P := decide_eq_true_iff

/-- A symbol whose high ticks are the first `n` of a bit period has `n` of them. -/
theorem highTicks_eq_of_prefix {P n : Nat} {sym : Symbol} (hn : n ≤ P) (h : ∀ c, high P sym c = true ↔ c < n) :
    highTicks P sym = n := by
  have hpre : {c ∈ Finset.range P | high P sym c = true} = Finset.range n := by
    ext c
    simp only [Finset.mem_filter, Finset.mem_range, h]
    omega
  calc highTicks P sym = Nat.count (fun c => high P sym c = true) P := by simp [highTicks, Nat.count]
    _ = n := by rw [Nat.count_eq_card_filter_range, hpre, Finset.card_range]

theorem highTicks_zero (P : Nat) : highTicks P .zero = (P + 4) / 5 :=
  highTicks_eq_of_prefix (by omega) fun c => by rw [high_zero_iff]; omega

theorem highTicks_one (P : Nat) : highTicks P .one = (P + 1) / 2 :=
  highTicks_eq_of_prefix (by omega) fun c => by rw [high_one_iff]; omega

theorem highTicks_marker (P : Nat) : highTicks P .marker = (4 * P + 4) / 5 :=
  highTicks_eq_of_prefix (by omega) fun c => by rw [high_marker_iff]; omega

/-- High ticks come first: tick `c` is high exactly below the number of high ticks. -/
theorem high_iff_lt_highTicks {P c : Nat} {sym : Symbol} : high P sym c = true ↔ c < highTicks P sym := by
  cases sym with
  | zero => rw [high_zero_iff, highTicks_zero]; omega
  | one => rw [high_one_iff, highTicks_one]; omega
  | marker => rw [high_marker_iff, highTicks_marker]; omega

theorem high_tick_zero {P : Nat} (hP : 1 ≤ P) (sym : Symbol) : high P sym 0 = true := by
  cases sym with
  | zero => rw [high_zero_iff]; omega
  | one => rw [high_one_iff]; omega
  | marker => rw [high_marker_iff]; omega

/-- Settles O24: for each symbol the high ticks are a prefix of the bit period, whose length is the ceiling of R142. -/
theorem highTicksOfABitPeriod : Obligations.HighTicksOfABitPeriod := by
  intro P hP
  refine ⟨highTicks_zero P, highTicks_one P, highTicks_marker P, fun _ _ _ => high_iff_lt_highTicks,
    high_tick_zero hP, fun h5 => ?apart⟩
  case apart =>
    rw [highTicks_zero, highTicks_one, highTicks_marker]
    omega

/-! ### ENC_RESET and ENC_HOLD (R143, R144) -/

theorem exec_encHold (last : Bool) (spare : BitVec 3) {s : State} (hl : s.enc.live = true) :
    exec (.encHold last spare) s = .next s := by
  simp [exec, execEncHold, encEdge_live hl]

/-- Settles O21: the reset table of the half, and the hold that assigns no register. -/
theorem encoderResetAndHold : Obligations.EncoderResetAndHold :=
  ⟨exec_encReset, fun last spare _ => exec_encHold last spare⟩

/-! ### ENC_TICK and ENC_TICK_LAST (R145, R146) -/

theorem exec_encTick (spare : BitVec 3) {s : State} {sym : Symbol} (hl : s.enc.live = true)
    (hs : Symbol.ofCode s.ports.symIn = some sym) :
    exec (.encTick spare) s =
      .next (s.setEnc { live := true, cnt := s.enc.cnt + 1, level := high s.cfg.P sym s.enc.cnt, reqQ := false }) := by
  simp [exec, execEncTick, encEnabledEdge_live hl hs, hl]

theorem exec_encTickLast (spare : BitVec 3) {s : State} {sym : Symbol} (hl : s.enc.live = true)
    (hs : Symbol.ofCode s.ports.symIn = some sym) :
    exec (.encTickLast spare) s =
      .next (s.setEnc { live := true, cnt := 0, level := high s.cfg.P sym (s.cfg.P - 1), reqQ := true }) := by
  simp [exec, execEncTickLast, encEnabledEdge_live hl hs, hl]

/-- Settles O22: the two operations of an enabled edge, with the duty function of the symbol written out. -/
theorem encoderTicksFollowTheDutyFunction : Obligations.EncoderTicksFollowTheDutyFunction := by
  intro spare s sym hl hsym
  have hs : Symbol.ofCode s.ports.symIn = some sym := Symbol.ofCode_eq_some.mpr hsym
  rw [exec_encTick spare hl hs, exec_encTickLast spare hl hs]
  cases sym with
  | zero => exact ⟨rfl, rfl⟩
  | one => exact ⟨rfl, rfl⟩
  | marker => exact ⟨rfl, rfl⟩

/-! ### The reserved symbol code (R148) -/

theorem encEnabledEdge_reserved {s : State} {f : Symbol → EncRegs → EncRegs} (hl : s.enc.live = true)
    (hs : Symbol.ofCode s.ports.symIn = none) : encEnabledEdge s f = .refused .symbolCode3 := by
  simp [encEnabledEdge, hs, hl]

/-- Settles O23: the reserved code names no symbol; the reset and the hold do not read `sym_in`. -/
theorem reservedSymbolIsRefusedAtAnEnabledEdge : Obligations.ReservedSymbolIsRefusedAtAnEnabledEdge := by
  refine ⟨fun spare s hl h3 => ?refused, fun s hl _ => ⟨?reset, ?hold⟩, fun q => (symbolOf q).code_ne_three⟩
  case refused =>
    have hs : Symbol.ofCode s.ports.symIn = none := Symbol.ofCode_eq_none.mpr h3
    exact ⟨encEnabledEdge_reserved hl hs, encEnabledEdge_reserved hl hs⟩
  case reset =>
    intro en last spare
    exact ⟨_, exec_encReset en last spare s⟩
  case hold =>
    intro last spare
    exact ⟨s, exec_encHold last spare hl⟩

end Sys2Proof.Machine

/-! PROOF. The frame sequencer (42_frame_sequencer.md): the operations of the half (R161 to R169), SYM (R160), the
simultaneous step of `irig_tx` (R171) and the latch pulse (R167). -/

namespace Sys2Proof.Machine

/-! ### SEQ_RESET and SEQ_HOLD (R161, R162) -/

theorem exec_seqHold (req : Bool) (phase : BitVec 2) (last : Bool) {s : State} (hl : s.seq.live = true) :
    exec (.seqHold req phase last) s = .next s := by
  rw [exec, execSeqHold, seqEdge_live hl, State.setSeq_self]

/-- Settles O26: the reset table of the half, and the hold that assigns no register. -/
theorem sequencerResetAndHold : Obligations.SequencerResetAndHold :=
  ⟨exec_seqReset, fun req phase last _ => exec_seqHold req phase last⟩

/-! ### The operations of AWAIT (R163, R164) -/

theorem exec_seqAwaitIdle (last : Bool) {s : State} (hl : s.seq.live = true) :
    exec (.seqAwaitIdle last) s = .next (s.setSeq { s.seq with index := 0, flQ := false }) := by
  rw [exec, execSeqAwaitIdle, seqEdge_live hl]

theorem exec_seqAwaitReq (last : Bool) {s : State} (hl : s.seq.live = true) :
    exec (.seqAwaitReq last) s = .next (s.setSeq { s.seq with phase := .latch, index := 0, flQ := false }) := by
  rw [exec, execSeqAwaitReq, seqEdge_live hl]

/-- Settles O27: the two operations of AWAIT, each a non-reset edge of a half that is reset. -/
theorem sequencerAwaitsTheFirstRequest : Obligations.SequencerAwaitsTheFirstRequest :=
  fun last _ hl => ⟨exec_seqAwaitIdle last hl, exec_seqAwaitReq last hl⟩

/-! ### The latch operations (R165, R169) -/

theorem exec_seqLatchFirst (req last : Bool) {s : State} (hl : s.seq.live = true) :
    exec (.seqLatchFirst req last) s =
      .next (s.setSeq
        { s.seq with buf := wires s.cfg.W s.ports.pendingFrame, flQ := true, index := 0, phase := .stream }) := by
  rw [exec, execSeqLatchFirst, seqEdge_live hl]

theorem exec_seqStreamWrap {s : State} (hl : s.seq.live = true) :
    exec .seqStreamWrap s =
      .next (s.setSeq { s.seq with index := 0, buf := wires s.cfg.W s.ports.pendingFrame, flQ := true }) := by
  rw [exec, execSeqStreamWrap, seqEdge_live hl]

/-- Settles O28: what a latch writes to `buf` is the instance's wires of `pending_frame`. -/
theorem sequencerLatchesThePendingFrame : Obligations.SequencerLatchesThePendingFrame := by
  intro s hl
  have hbuf : ∀ i, (wires s.cfg.W s.ports.pendingFrame).getLsbD i =
      (decide (i < s.cfg.W) && s.ports.pendingFrame.getLsbD i) :=
    fun i => wires_getLsbD s.cfg.W i s.ports.pendingFrame
  constructor
  · intro req last
    exact ⟨_, exec_seqLatchFirst req last hl, rfl, hl, rfl, rfl, rfl, hbuf⟩
  · exact ⟨_, exec_seqStreamWrap hl, rfl, hl, rfl, rfl, rfl, hbuf⟩

/-! ### The other operations of STREAM (R166, R168) -/

theorem exec_seqStreamIdle (last : Bool) {s : State} (hl : s.seq.live = true) :
    exec (.seqStreamIdle last) s = .next (s.setSeq { s.seq with flQ := false }) := by
  rw [exec, execSeqStreamIdle, seqEdge_live hl]

theorem exec_seqStreamAdvance {s : State} (hl : s.seq.live = true) :
    exec .seqStreamAdvance s = .next (s.setSeq { s.seq with index := s.seq.index + 1, flQ := false }) := by
  rw [exec, execSeqStreamAdvance, seqEdge_live hl]

/-- Settles O29: the two operations of STREAM that do not latch, each a non-reset edge of a half that is reset. -/
theorem sequencerStreamsTheFrame : Obligations.SequencerStreamsTheFrame :=
  fun _ hl => ⟨fun last => exec_seqStreamIdle last hl, exec_seqStreamAdvance hl⟩

/-! ### An enabled edge of each half, and of both (R171) -/

/-- The encoder half after an enabled, non-reset edge with `sym` on `sym_in` (R171). -/
def enabledEnc (c : Config) (sym : Symbol) (e : EncRegs) : EncRegs :=
  { e with level := high c.P sym e.cnt, reqQ := decide (e.cnt = c.P - 1), cnt := (e.cnt + 1) % c.P }

/-- The operation that the encoder half selects at an enabled edge. -/
theorem exec_enabledEncOp {s : State} {sym : Symbol} {spare : BitVec 3} (hl : s.enc.live = true)
    (hs : s.ports.symIn = sym.code) (hc : s.enc.cnt < s.cfg.P) :
    exec (if encLast s.cfg s.enc then .encTickLast spare else .encTick spare) s =
      .next (s.setEnc (enabledEnc s.cfg sym s.enc)) := by
  rw [exec_enabledEncoder hl hs hc, enabledEnc, hl]

/-- In an enabled, non-reset cycle `request` is the token (41_symbol_encoder.md R147). -/
theorem requestOut_enabled (e : EncRegs) : requestOut e false true = e.reqQ := by
  simp [requestOut]

/-- The sequencer half after an enabled, non-reset edge, by the operation of its phase and request (R163 to R170);
`none` is the refusal of phase 0b11. -/
def enabledSeq (c : Config) (pending : Payload) (req : Bool) (q : SeqRegs) : Option SeqRegs :=
  match q.phase, req with
  | .await, false => some { q with index := 0, flQ := false }
  | .await, true => some { q with phase := .latch, index := 0, flQ := false }
  | .latch, _ => some { q with buf := wires c.W pending, flQ := true, index := 0, phase := .stream }
  | .stream, false => some { q with flQ := false }
  | .stream, true =>
    if q.index = c.W - 1 then some { q with index := 0, buf := wires c.W pending, flQ := true }
    else some { q with index := q.index + 1, flQ := false }
  | .code3, _ => none

/-- The pseudocode of R171 at an enabled edge is the two halves side by side: the encoder half takes the sequencer's
symbol, the sequencer half the encoder's token. -/
theorem txStep_enabled (c : Config) (pending : Payload) (e : EncRegs) (q : SeqRegs) :
    txStep c false true pending e q =
      (enabledSeq c pending e.reqQ q).map fun q' => (enabledEnc c (symbolOf q) e, q') := by
  obtain ⟨live, phase, index, buf, flQ⟩ := q
  cases phase with
  | await => cases hreq : e.reqQ <;> simp [txStep, enabledSeq, enabledEnc, hreq]
  | latch => simp [txStep, enabledSeq, enabledEnc]
  | stream =>
    cases hreq : e.reqQ with
    | false => simp [txStep, enabledSeq, enabledEnc, hreq]
    | true => by_cases hi : index = c.W - 1 <;> simp [txStep, enabledSeq, enabledEnc, hreq, hi]
  | code3 => simp [txStep, enabledSeq]

/-- The operation that the sequencer half selects at an enabled edge. -/
theorem exec_enabledSeqOp (req : Bool) {s : State} (hl : s.seq.live = true) :
    exec (enabledSeqOp s.seq.phase req (seqLast s.cfg s.seq)) s =
      (enabledSeq s.cfg s.ports.pendingFrame req s.seq).elim (.refused .sequencerPhase3) fun q =>
        .next (s.setSeq q) := by
  cases hp : s.seq.phase with
  | await =>
    cases req with
    | false => simp [enabledSeqOp, enabledSeq, hp, exec_seqAwaitIdle _ hl]
    | true => simp [enabledSeqOp, enabledSeq, hp, exec_seqAwaitReq _ hl]
  | latch => simp [enabledSeqOp, enabledSeq, hp, exec_seqLatchFirst _ _ hl]
  | stream =>
    cases req with
    | false => simp [enabledSeqOp, enabledSeq, hp, exec_seqStreamIdle _ hl]
    | true =>
      by_cases hi : s.seq.index = s.cfg.W - 1
      · have hlast : seqLast s.cfg s.seq = true := by simp [seqLast, hi]
        simp [enabledSeqOp, enabledSeq, hp, hlast, hi, exec_seqStreamWrap hl]
      · have hlast : seqLast s.cfg s.seq = false := by simp [seqLast, hi]
        simp [enabledSeqOp, enabledSeq, hp, hlast, hi, exec_seqStreamAdvance hl]
  | code3 => simp [enabledSeqOp, enabledSeq, hp, exec_seqReservedPhase3_live _ _ hl]

/-- A disabled edge of `irig_tx` selects the hold of both halves. -/
theorem step_txOnly_disabled {s : State} {d : TxDrive} {rest : List Line} (h : s.stimulus = txOnly d :: rest)
    (he : s.enc.live = true) (hq : s.seq.live = true) (hr : d.rst = false) (hen : d.en = false) :
    step s = .next (present (txOnly d) (s.setStimulus rest)) :=
  calc step s
      = andThen (exec (.encHold (encLast s.cfg s.enc) 0) (present (txOnly d) (s.setStimulus rest)))
          (exec (.seqHold (requestOut s.enc false false) s.seq.phase.code (seqLast s.cfg s.seq))) := by
        rw [step_txOnly h, decode_encVector, decode_seqVector, hr, hen]
        rfl
    _ = exec (.seqHold (requestOut s.enc false false) s.seq.phase.code (seqLast s.cfg s.seq))
          (present (txOnly d) (s.setStimulus rest)) := by
        rw [exec_encHold _ _ (by simpa using he), andThen_next]
    _ = .next (present (txOnly d) (s.setStimulus rest)) := exec_seqHold _ _ _ (by simpa using hq)

/-- An enabled, non-reset edge of `irig_tx`: each half takes what the other shows before the edge. -/
theorem step_txOnly_enabled {s : State} {d : TxDrive} {rest : List Line} (h : s.stimulus = txOnly d :: rest)
    (he : s.enc.live = true) (hq : s.seq.live = true) (hc : s.enc.cnt < s.cfg.P) (hr : d.rst = false)
    (hen : d.en = true) :
    step s =
      (enabledSeq s.cfg (d.pend.getD s.ports.pendingFrame) s.enc.reqQ s.seq).elim (.refused .sequencerPhase3) fun q =>
        .next (((present (txOnly d) (s.setStimulus rest)).setEnc (enabledEnc s.cfg (symbolOf s.seq) s.enc)).setSeq
          q) :=
  let u := present (txOnly d) (s.setStimulus rest)
  calc step s
      = andThen (exec (if encLast u.cfg u.enc then .encTickLast 0 else .encTick 0) u)
          (exec (enabledSeqOp s.seq.phase (requestOut s.enc false true) (seqLast s.cfg s.seq))) := by
        rw [step_txOnly h, decode_encVector, decode_seqVector, hr, hen]
        rfl
    _ = exec (enabledSeqOp s.seq.phase s.enc.reqQ (seqLast s.cfg s.seq))
          (u.setEnc (enabledEnc s.cfg (symbolOf s.seq) s.enc)) := by
        rw [exec_enabledEncOp (s := u) he rfl hc, andThen_next, requestOut_enabled]
        rfl
    _ = _ := exec_enabledSeqOp (s := u.setEnc (enabledEnc s.cfg (symbolOf s.seq) s.enc)) s.enc.reqQ hq

/-- Settles O10: the outputs are those of `txOut`; the next state by the kind of edge (reset, disabled, enabled). -/
theorem transmitterEdgeIsTheSimultaneousStep : Obligations.TransmitterEdgeIsTheSimultaneousStep := by
  intro s d rest h he hq hc
  refine ⟨rfl, ?_⟩
  cases hr : d.rst with
  | true => exact step_txOnly_rst h hr
  | false =>
    cases hen : d.en with
    | false => exact step_txOnly_disabled h he hq hr hen
    | true =>
      rw [txStep_enabled, step_txOnly_enabled h he hq hc hr hen]
      cases enabledSeq s.cfg (d.pend.getD s.ports.pendingFrame) s.enc.reqQ s.seq <;> rfl

/-! ### SYM (R160) -/

theorem isMarker_iff {i : Nat} : isMarker i = true ↔ i = 0 ∨ i % 10 = 9 := by
  simp [isMarker]

theorem symbolOf_eq_ite (q : SeqRegs) :
    symbolOf q =
      if q.index = 0 ∨ q.index % 10 = 9 then .marker else if q.buf.getLsbD q.index = true then .one else .zero := by
  simp only [symbolOf, isMarker_iff]

/-- Index 0 is a marker position; in AWAIT and LATCH the index is 0. -/
theorem symbolOf_index_zero {q : SeqRegs} (h : q.index = 0) : symbolOf q = .marker := by
  rw [symbolOf_eq_ite, if_pos (Or.inl h)]

/-- A position that is no marker gets a bit (R103, R104). -/
theorem encodeSymbol_bit (t : Timestamp) {i : Nat} (h : isMarker i = false) :
    encodeSymbol t i = .one ∨ encodeSymbol t i = .zero := by
  cases hd : dataAt i with
  | none => exact .inr (encodeSymbol_zero t h hd)
  | some p =>
    rw [encodeSymbol_data t hd]
    exact ite_eq_or_eq _ _ _

/-- With a frame's payload in `buf`, SYM is the frame's symbol at the index: the payload tells One from Zero, and the
position tells Marker. -/
theorem symbolOf_payloadOf_frameOf {W : Nat} (hW : W ≤ 100) {t : Timestamp} {q : SeqRegs}
    (hbuf : q.buf = payloadOf (frameOf W t)) (hi : q.index < W) : symbolOf q = encodeSymbol t q.index := by
  have hbit : q.buf.getLsbD q.index = decide (encodeSymbol t q.index = .one) := by
    rw [hbuf, payloadOf_getLsbD (by simpa using hW), frameOf_getElem? t hi]
    simp
  cases hm : isMarker q.index with
  | true => simp [symbolOf, hm, encodeSymbol_marker t hm]
  | false => rcases encodeSymbol_bit t hm with h | h <;> simp [symbolOf, hm, hbit, h]

/-- Settles O31: SYM by marker positions and bits of `buf`, and its value for the two kinds of register contents. -/
theorem symbolFollowsIndexAndBuffer : Obligations.SymbolFollowsIndexAndBuffer := by
  refine ⟨symbolOf_eq_ite, fun c q hinv hphase => symbolOf_index_zero (hinv.index_zero hphase), ?encoded⟩
  case encoded =>
    intro c w out hw hok q hbuf hi
    have hW : c.W ≤ 100 := by have := c.W_cases; omega
    have hout := encodeWord_eq_ok hw hok
    rw [hout] at hbuf
    rw [hout, frameOf_codes_getD _ hi, symbolOf_payloadOf_frameOf hW hbuf hi]

/-! ### The latch pulse (R167) -/

theorem frameLatchedOut_iff (q : SeqRegs) (rst en : Bool) :
    frameLatchedOut q rst en = true ↔ q.flQ = true ∧ en = true ∧ rst = false := by
  simp [frameLatchedOut, and_assoc]

/-- A latch operation that answers sets `fl_q`. -/
theorem flQ_of_latch {s t : State} {req last : Bool}
    (h : exec (.seqLatchFirst req last) s = .next t ∨ exec .seqStreamWrap s = .next t) : t.seq.flQ = true := by
  rcases h with h | h
  · rw [exec, execSeqLatchFirst, seqEdge_eq_next] at h
    obtain ⟨-, rfl⟩ := h
    rfl
  · rw [exec, execSeqStreamWrap, seqEdge_eq_next] at h
    obtain ⟨-, rfl⟩ := h
    rfl

/-- With `fl_q` set the half is in STREAM at index 0, which is not the last index: the enabled edge does not latch
again. -/
theorem enabledSeq_flQ {c : Config} {pending : Payload} {req : Bool} {q q' : SeqRegs} (hinv : q.Inv c)
    (hfl : q.flQ = true) (h : enabledSeq c pending req q = some q') : q'.flQ = false := by
  obtain ⟨hphase, hindex⟩ := hinv.latched_fresh hfl
  have hlast : 0 ≠ c.W - 1 := by have := c.W_cases; omega
  cases req with
  | false =>
    obtain rfl : { q with flQ := false } = q' := by simpa [enabledSeq, hphase] using h
    rfl
  | true =>
    obtain rfl : { q with index := q.index + 1, flQ := false } = q' := by
      simpa [enabledSeq, hphase, hindex, hlast] using h
    rfl

/-- Settles O32: the gate of the output, the two operations that set the token, and the three kinds of edge after. -/
theorem latchPulseShowsForOneEnabledCycle : Obligations.LatchPulseShowsForOneEnabledCycle := by
  refine ⟨frameLatchedOut_iff, fun s t req last => flQ_of_latch, ?edge⟩
  case edge =>
    intro s d rest t hinv h he hq hfl hstep
    refine ⟨fun hr hen => ⟨(frameLatchedOut_iff _ _ _).mpr ⟨hfl, hen, hr⟩, ?_⟩,
      fun hr hen => ⟨by simp [frameLatchedOut, hen], ?_⟩, fun hr => ⟨by simp [hr], ?_⟩⟩
    · rw [step_txOnly_enabled h he hq (hinv.enc he).cnt_lt hr hen] at hstep
      cases hnext : enabledSeq s.cfg (d.pend.getD s.ports.pendingFrame) s.enc.reqQ s.seq with
      | none =>
        rw [hnext] at hstep
        cases hstep
      | some q =>
        rw [hnext] at hstep
        cases hstep
        exact enabledSeq_flQ (hinv.seq hq) hfl hnext
    · rw [step_txOnly_disabled h he hq hr hen] at hstep
      cases hstep
      exact hfl
    · rw [step_txOnly_rst h hr] at hstep
      cases hstep
      rfl

end Sys2Proof.Machine

/-! PROOF. The demodulator (43_demodulator.md): the classifier (R201) and the operations of the receiver (R202 to R208,
R213). -/

namespace Sys2Proof.Machine

/-! ### The classifier (R201) -/

/-- Everything the classifier can answer: the comparisons in their order cut the counts into four ranges. -/
theorem classify_cases (P c : Nat) :
    (classify P c = some .marker ∧ 4 * P ≤ 5 * c) ∨
    (classify P c = some .one ∧ 5 * c < 4 * P ∧ P ≤ 2 * c) ∨
    (classify P c = some .zero ∧ 5 * c < 4 * P ∧ 2 * c < P ∧ P ≤ 5 * c) ∨
    (classify P c = none ∧ 5 * c < P) := by
  by_cases hmarker : 5 * c ≥ 4 * P
  · exact .inl ⟨if_pos hmarker, hmarker⟩
  by_cases hone : 2 * c ≥ P
  · exact .inr (.inl ⟨by rw [classify, if_neg hmarker, if_pos hone], by omega, hone⟩)
  by_cases hzero : 5 * c ≥ P
  · exact .inr (.inr (.inl
      ⟨by rw [classify, if_neg hmarker, if_neg hone, if_pos hzero], by omega, by omega, hzero⟩))
  · exact .inr (.inr (.inr ⟨by rw [classify, if_neg hmarker, if_neg hone, if_neg hzero], by omega⟩))

theorem classify_eq_marker_iff {P c : Nat} : classify P c = some .marker ↔ 4 * P ≤ 5 * c := by
  rcases classify_cases P c with ⟨h, _⟩ | ⟨h, _⟩ | ⟨h, _⟩ | ⟨h, _⟩ <;> simp [h] <;> omega

theorem classify_eq_one_iff {P c : Nat} : classify P c = some .one ↔ 5 * c < 4 * P ∧ P ≤ 2 * c := by
  rcases classify_cases P c with ⟨h, _⟩ | ⟨h, _⟩ | ⟨h, _⟩ | ⟨h, _⟩ <;> simp [h] <;> omega

theorem classify_eq_zero_iff {P c : Nat} :
    classify P c = some .zero ↔ 5 * c < 4 * P ∧ 2 * c < P ∧ P ≤ 5 * c := by
  rcases classify_cases P c with ⟨h, _⟩ | ⟨h, _⟩ | ⟨h, _⟩ | ⟨h, _⟩ <;> simp [h] <;> omega

theorem classify_eq_none_iff {P c : Nat} : classify P c = none ↔ 5 * c < P := by
  rcases classify_cases P c with ⟨h, _⟩ | ⟨h, _⟩ | ⟨h, _⟩ | ⟨h, _⟩ <;> simp [h] <;> omega

/-- Settles O51: the range of counts of each result; the table for P = 10 is evaluated. -/
theorem classifierThresholds : Obligations.ClassifierThresholds :=
  ⟨fun _ _ => classify_eq_marker_iff, fun _ _ => classify_eq_one_iff, fun _ _ => classify_eq_zero_iff,
    fun _ _ => classify_eq_none_iff, by decide⟩

/-! ### RX_RESET, RX_DONE_HOLD and RX_IDLE (R202, R203, R205) -/

theorem exec_rxDoneHold (ended valid sample prev : Bool) {s : State} (hl : s.rx.live = true) :
    exec (.rxDoneHold ended valid sample prev) s = .next s := by
  rw [exec, execRxDoneHold, rxEdge_live hl, State.setRx_self]

theorem exec_rxIdle (sample prev : Bool) {s : State} (hl : s.rx.live = true) :
    exec (.rxIdle sample prev) s = .next s := by
  rw [exec, execRxIdle, rxEdge_live hl, State.setRx_self]

/-- Settles O47: the reset table of the receiver, and the two operations that assign no register. -/
theorem receiverResetHoldAndIdle : Obligations.ReceiverResetHoldAndIdle :=
  ⟨exec_rxReset, fun ended valid sample prev _ => exec_rxDoneHold ended valid sample prev,
    fun sample prev _ => exec_rxIdle sample prev⟩

/-! ### RX_END (R204) -/

theorem exec_rxEnd (valid sample prev : Bool) {s : State} (hl : s.rx.live = true) :
    exec (.rxEnd valid sample prev) s = .next (s.setRx (raiseRx .incompleteFrame s.rx)) := by
  rw [exec, execRxEnd, rxEdge_live hl]

/-- Settles O48: the end of the stream raises IncompleteFrame in the receiver (60_exceptions.md R231). -/
theorem streamEndRecordsIncompleteFrame : Obligations.StreamEndRecordsIncompleteFrame :=
  fun valid sample prev _ hl => exec_rxEnd valid sample prev hl

/-! ### RX_HIGH and RX_LOW (R206, R207) -/

theorem exec_rxHigh (prev : Bool) {s : State} (hl : s.rx.live = true) :
    exec (.rxHigh prev) s = .next (s.setRx { s.rx with cnt := min (s.rx.cnt + 1) s.cfg.P, prev := true }) := by
  rw [exec, execRxHigh, rxEdge_live hl]

theorem exec_rxLow {s : State} (hl : s.rx.live = true) :
    exec .rxLow s = .next (s.setRx { s.rx with prev := false }) := by
  rw [exec, execRxLow, rxEdge_live hl]

/-- Settles O49: the saturating count is the minimum of the next count and P. -/
theorem samplesCountThePulse : Obligations.SamplesCountThePulse := by
  intro s hl
  refine ⟨fun prev => ?_, exec_rxLow hl⟩
  rw [exec_rxHigh prev hl, Nat.min_def]

/-! ### RX_FALL (R208, R213) -/

theorem exec_rxFall_noise {s : State} (hl : s.rx.live = true) (hc : classify s.cfg.P s.rx.cnt = none) :
    exec .rxFall s = .next (s.setRx { s.rx with cnt := 0, prev := false }) := by
  simp only [exec, execRxFall, rxEdge_live hl, hc]

theorem exec_rxFall_symbol {s : State} {sym : Symbol} (hl : s.rx.live = true)
    (hc : classify s.cfg.P s.rx.cnt = some sym) :
    exec .rxFall s = .next (s.setRx (appendSymbol s.cfg.W sym { s.rx with cnt := 0, prev := false })) := by
  simp only [exec, execRxFall, rxEdge_live hl, hc]

theorem appendSymbol_of_ne {W : Nat} {sym : Symbol} {r : RxRegs} (h : r.n + 1 ≠ W) :
    appendSymbol W sym r = { r with n := r.n + 1, syms := r.syms.set r.n sym.code } := if_neg h

theorem appendSymbol_last {W : Nat} {sym : Symbol} {r : RxRegs} (h : r.n + 1 = W) :
    appendSymbol W sym r =
      { r with
        n := r.n + 1, syms := r.syms.set r.n sym.code, done := true
        status := (decodeFrame W (r.syms.set r.n sym.code)).status
        ts := (decodeFrame W (r.syms.set r.n sym.code)).ts } := if_pos h

/-- Settles O50: noise appends nothing; a classified symbol is appended, and the W-th also ends the call. -/
theorem fallingEdgeClassifiesThePulse : Obligations.FallingEdgeClassifiesThePulse := by
  intro s hl
  refine ⟨exec_rxFall_noise hl, fun sym hc hn => ?before, fun sym hc hn => ?last⟩
  case before =>
    rw [exec_rxFall_symbol hl hc, appendSymbol_of_ne (r := { s.rx with cnt := 0, prev := false }) hn.ne]
  case last =>
    rw [exec_rxFall_symbol hl hc, appendSymbol_last (r := { s.rx with cnt := 0, prev := false }) hn]

end Sys2Proof.Machine

/-! PROOF. Edges from "unreset" (70_reset_and_hazards.md R261): each kind of non-reset edge is refused while its block is
unreset, so every operation that a non-reset vector of the block selects is refused too. -/

namespace Sys2Proof.Machine

/-! ### The kinds of non-reset edge -/

theorem encEdge_unreset {s : State} (f : EncRegs → EncRegs) (hl : s.enc.live = false) :
    encEdge s f = .refused .unresetTransmitter := by simp [encEdge, hl]

theorem rxEdge_unreset {s : State} (f : RxRegs → RxRegs) (hl : s.rx.live = false) :
    rxEdge s f = .refused .unresetReceiver := by simp [rxEdge, hl]

/-- While the half is unreset it does not matter whether `sym_in` names a symbol. -/
theorem encEnabledEdge_unreset {s : State} (f : Symbol → EncRegs → EncRegs) (hl : s.enc.live = false) :
    encEnabledEdge s f = .refused .unresetTransmitter := by
  rw [encEnabledEdge]
  cases Symbol.ofCode s.ports.symIn with
  | some sym => exact encEdge_unreset (f sym) hl
  | none => simp [hl]

/-! ### The operations that a non-reset vector selects -/

theorem exec_encVector_unreset (c : Config) (e : EncRegs) (en : Bool) (spare : BitVec 3) {s : State}
    (hl : s.enc.live = false) :
    exec (decodeVector (encVector c e false en spare)) s = .refused .unresetTransmitter := by
  rw [decode_encVector, if_neg Bool.false_ne_true]
  split_ifs
  · rw [exec, execEncHold, encEdge_unreset _ hl]
  · rw [exec, execEncTickLast, encEnabledEdge_unreset _ hl]
  · rw [exec, execEncTick, encEnabledEdge_unreset _ hl]

theorem exec_rxVector_unreset (r : RxRegs) (valid sample ended : Bool) {s : State} (hl : s.rx.live = false) :
    exec (decodeVector (rxVector r false valid sample ended)) s = .refused .unresetReceiver := by
  rw [decode_rxVector, if_neg Bool.false_ne_true]
  split_ifs
  · rw [exec, execRxDoneHold, rxEdge_unreset _ hl]
  · rw [exec, execRxEnd, rxEdge_unreset _ hl]
  · rw [exec, execRxIdle, rxEdge_unreset _ hl]
  · rw [exec, execRxHigh, rxEdge_unreset _ hl]
  · rw [exec, execRxFall, rxEdge_unreset _ hl]
  · rw [exec, execRxLow, rxEdge_unreset _ hl]

/-! ### The edges -/

/-- The encoder half comes first in an edge of `irig_tx`, so its refusal is the edge's, enabled or not. -/
theorem step_txOnly_unreset {s : State} {d : TxDrive} {rest : List Line} (h : s.stimulus = txOnly d :: rest)
    (hr : d.rst = false) (hl : s.enc.live = false) : step s = .refused .unresetTransmitter := by
  rw [step_txOnly h, hr, exec_encVector_unreset _ _ _ _ (by simpa using hl), andThen_refused]

theorem step_rxOnly_unreset {s : State} {d : RxDrive} {rest : List Line} (h : s.stimulus = rxOnly d :: rest)
    (hr : d.rst = false) (hl : s.rx.live = false) : step s = .refused .unresetReceiver := by
  rw [step_rxOnly h, hr, exec_rxVector_unreset _ _ _ _ (by simpa using hl)]

/-- Settles O20: the two refusals are those of the unreset edges; the codec operations read no register (10_state.md
R20), so power-on changes nothing about them. -/
theorem unresetBlocksRefuseAllButReset : Obligations.UnresetBlocksRefuseAllButReset := by
  refine ⟨?transmitter, ?receiver, ?powerOn, ?decode, ?encode⟩
  case transmitter => exact fun _ _ _ h hr hl => step_txOnly_unreset h hr hl
  case receiver => exact fun _ _ _ h hr hl => step_rxOnly_unreset h hr hl
  case powerOn => exact fun _ => ⟨rfl, rfl, rfl⟩
  case decode => exact fun _ _ _ => rfl
  case encode => exact fun _ ctl _ _ hw => exec_encode_some ctl hw

end Sys2Proof.Machine

/-! PROOF. The encoder and the decoder of operation vectors are each other's inverse (30_encoding.md R82 to R87), and so
are the packing and the unpacking of a timestamp word (R75). -/

namespace Sys2Proof.Machine

/-! ### Operation vectors (R82 to R87) -/

/-- An operation's vector decodes to it, for every operand: each operand bit has a place of its own in the vector. -/
theorem decodeVector_encode (i : Instr) : decodeVector (encode i) = i := by
  cases i with
  | encode ctl | decode ctl | reservedBlock5 ctl | reservedBlock6 ctl | reservedBlock7 ctl => revert ctl; decide
  | encReset en last spare => revert en last spare; decide
  | encHold last spare => revert last spare; decide
  | encTick spare | encTickLast spare => revert spare; decide
  | seqReset en req phase last => revert en req phase last; decide
  | seqHold req phase last => revert req phase last; decide
  | seqAwaitIdle last | seqAwaitReq last | seqStreamIdle last => revert last; decide
  | seqLatchFirst req last | seqReservedPhase3 req last => revert req last; decide
  | seqStreamAdvance | seqStreamWrap | rxLow | rxFall => decide
  | rxReset done ended valid sample prev => revert done ended valid sample prev; decide
  | rxDoneHold ended valid sample prev => revert ended valid sample prev; decide
  | rxEnd valid sample prev => revert valid sample prev; decide
  | rxIdle sample prev => revert sample prev; decide
  | rxHigh prev => revert prev; decide

/-- A nine-wire number, read as a table word, is the operation of its vector. -/
theorem decodeTableWord_toNat (nbits : Nat) (v : OpVector) : decodeTableWord nbits v.toNat = some (decodeVector v) := by
  rw [decodeTableWord, decodeNat_toNat]
  rfl

/-- Settles O3: the decoder undoes the encoder, and a vector's number is below 512. -/
theorem decodeOfEncodeIsIdentity : Obligations.DecodeOfEncodeIsIdentity := by
  intro i
  rw [decodeTableWord_toNat, decodeVector_encode]
  exact ⟨rfl, rfl⟩

/-- Settles O4: the encoder undoes the decoder. -/
theorem encodeOfDecodeIsIdentity : Obligations.EncodeOfDecodeIsIdentity := encode_decodeVector

/-- Settles O1: the listed vectors, computed. -/
theorem specVectorsDecode : Obligations.SpecVectorsDecode := by
  unfold Obligations.SpecVectorsDecode
  decide

end Sys2Proof.Machine

namespace Sys2Proof

/-! ### The timestamp word (R75) -/

theorem toNat_append_eq_add {m n : Nat} (x : BitVec m) (y : BitVec n) :
    (x ++ y).toNat = x.toNat * 2 ^ n + y.toNat := by
  rw [BitVec.toNat_append, ← Nat.shiftLeft_add_eq_or_of_lt y.isLt, Nat.shiftLeft_eq]

/-- The value of a timestamp word is the weighted sum of its fields, each cut to its bits. -/
theorem Timestamp.toWord_toNat (t : Timestamp) :
    t.toWord.toNat =
      t.sec % 2 ^ 6 + 2 ^ 6 * (t.min % 2 ^ 6) + 2 ^ 12 * (t.hr % 2 ^ 5) + 2 ^ 17 * (t.day % 2 ^ 9) +
        2 ^ 26 * (t.year % 2 ^ 12) := by
  simp only [Timestamp.toWord, toNat_append_eq_add, BitVec.toNat_ofNat]
  omega

/-- The fields of a timestamp word, as digits of its value. -/
theorem Timestamp.ofWord_eq (w : TsWord) :
    Timestamp.ofWord w =
      { sec := w.toNat % 2 ^ 6, min := w.toNat / 2 ^ 6 % 2 ^ 6, hr := w.toNat / 2 ^ 12 % 2 ^ 5
        day := w.toNat / 2 ^ 17 % 2 ^ 9, year := w.toNat / 2 ^ 26 % 2 ^ 12 } := by
  simp [Timestamp.ofWord, Nat.shiftRight_eq_div_pow]

theorem Timestamp.ofWord_toWord {t : Timestamp} (hs : t.sec < 64) (hm : t.min < 64) (hh : t.hr < 32)
    (hd : t.day < 512) (hy : t.year < 4096) : Timestamp.ofWord t.toWord = t := by
  have hw := t.toWord_toNat
  obtain ⟨sec, min, hr, day, year⟩ := t
  simp only at hs hm hh hd hy hw
  rw [Timestamp.ofWord_eq, Timestamp.mk.injEq]
  omega

theorem Timestamp.toWord_ofWord (w : TsWord) : (Timestamp.ofWord w).toWord = w := by
  apply BitVec.eq_of_toNat_eq
  have hlt : w.toNat < 2 ^ 38 := w.isLt
  rw [Timestamp.toWord_toNat, Timestamp.ofWord_eq]
  simp only
  omega

/-- Settles O40: packing and unpacking are each other's inverse, and the value is the weighted sum. -/
theorem timestampWordHoldsItsFields : Obligations.TimestampWordHoldsItsFields := by
  refine ⟨fun t hs hm hh hd hy => ⟨Timestamp.ofWord_toWord hs hm hh hd hy, ?_⟩, Timestamp.toWord_ofWord⟩
  rw [Timestamp.toWord_toNat]
  omega

end Sys2Proof

/-! PROOF. The codec is a bijection between the valid timestamps and the frames DECODE accepts (40_codec.md R122): the
bits of a digit are its binary expansion, so a digit is read back from the frame it was written to, and a position's bit
from the digit it was read into. -/

namespace Sys2Proof

theorem Config.le_W (c : Config) : 60 ≤ c.W := by
  have := c.W_cases
  omega

theorem Config.W_pos (c : Config) : 0 < c.W := Nat.lt_of_lt_of_le (by decide) c.le_W

theorem Config.W_le (c : Config) : c.W ≤ 100 := by
  have := c.W_cases
  omega

end Sys2Proof

namespace Sys2Proof.Machine

/-! ### A digit and the bits at its positions (R103, R115) -/

/-- The positions of a digit carry the digit and its weights, the most significant first. -/
theorem dataAt_digitStart_add {d : Digit} {k : Nat} (h : k < digitWidth d) :
    dataAt (digitStart d + k) = some (d, digitWeight d k) := by
  have table : ∀ k < digitWidth d, dataAt (digitStart d + k) = some (d, digitWeight d k) := by
    cases d <;> decide
  exact table k h

/-- A data position is one of the positions of its digit. -/
theorem dataAt_eq_some {i : Nat} {d : Digit} {wt : Nat} (h : dataAt i = some (d, wt)) :
    ∃ k < digitWidth d, i = digitStart d + k ∧ wt = digitWeight d k := by
  obtain ⟨d', hfind, hpair⟩ := Option.map_eq_some_iff.mp h
  obtain ⟨rfl, rfl⟩ := Prod.mk.inj hpair
  have hin := List.find?_some hfind
  simp only [Bool.and_eq_true, decide_eq_true_eq] at hin
  exact ⟨i - digitStart d', by omega, by omega, rfl⟩

theorem digitWidth_cases (d : Digit) : digitWidth d = 2 ∨ digitWidth d = 3 ∨ digitWidth d = 4 := by
  cases d <;> decide

theorem oneAt_le_one (frame : List SymCode) (i : Nat) : oneAt frame i ≤ 1 := by
  rw [oneAt]
  split <;> omega

/-- A frame whose positions of a digit hold the binary expansion of `x` spells `x` there. -/
theorem readDigit_of_bits {frame : List SymCode} {d : Digit} {x : Nat} (hx : x < 2 ^ digitWidth d)
    (h : ∀ k < digitWidth d, oneAt frame (digitStart d + k) = x / digitWeight d k % 2) : readDigit frame d = x := by
  rcases digitWidth_cases d with hw | hw | hw <;> rw [hw] at hx
  · rw [readDigit_width2 frame hw, ← Nat.add_zero (digitStart d), h 0 (by omega), Nat.add_zero, h 1 (by omega)]
    simp only [digitWeight, hw]
    omega
  · rw [readDigit_width3 frame hw, ← Nat.add_zero (digitStart d), h 0 (by omega), Nat.add_zero, h 1 (by omega),
      h 2 (by omega)]
    simp only [digitWeight, hw]
    omega
  · rw [readDigit_width4 frame hw, ← Nat.add_zero (digitStart d), h 0 (by omega), Nat.add_zero, h 1 (by omega),
      h 2 (by omega), h 3 (by omega)]
    simp only [digitWeight, hw]
    omega

/-- The digit a frame spells has the frame's bit at each of its positions. -/
theorem readDigit_bit (frame : List SymCode) {d : Digit} {k : Nat} (hk : k < digitWidth d) :
    readDigit frame d / digitWeight d k % 2 = oneAt frame (digitStart d + k) := by
  have h0 := oneAt_le_one frame (digitStart d)
  have h1 := oneAt_le_one frame (digitStart d + 1)
  have h2 := oneAt_le_one frame (digitStart d + 2)
  have h3 := oneAt_le_one frame (digitStart d + 3)
  rcases digitWidth_cases d with hw | hw | hw <;> rw [hw] at hk
  · rw [readDigit_width2 frame hw]
    interval_cases k <;> simp only [digitWeight, hw, Nat.add_zero] <;> omega
  · rw [readDigit_width3 frame hw]
    interval_cases k <;> simp only [digitWeight, hw, Nat.add_zero] <;> omega
  · rw [readDigit_width4 frame hw]
    interval_cases k <;> simp only [digitWeight, hw, Nat.add_zero] <;> omega

/-! ### DECODE of an encoded frame -/

/-- Every digit of a timestamp in range fits the bits of its positions. -/
theorem digitOf_lt {t : Timestamp} (hy : yearInRange t = true) (hf : fieldsInRange t = true) (d : Digit) :
    digitOf t d < 2 ^ digitWidth d ∧ (digitWidth d = 4 → digitOf t d ≤ 9) := by
  rw [yearInRange_iff] at hy
  rw [fieldsInRange_iff] at hf
  cases d <;> simp only [digitOf, digitWidth] <;> omega

/-- A digit is read back from the frame it was encoded in (W ≥ 59: both widths hold all the data positions). -/
theorem readDigit_frameOf {W : Nat} (hW : 59 ≤ W) {t : Timestamp} {d : Digit}
    (hd : digitOf t d < 2 ^ digitWidth d) : readDigit ((frameOf W t).map Symbol.code) d = digitOf t d := by
  refine readDigit_of_bits hd fun k hk => ?_
  have hat := dataAt_digitStart_add hk
  have hi : digitStart d + k < 59 := lt_of_dataAt_isSome (Option.isSome_of_eq_some hat)
  rw [oneAt, frameOf_codes_getD t (by omega), encodeSymbol_data t hat]
  rcases Nat.mod_two_eq_zero_or_one (digitOf t d / digitWeight d k) with h | h <;> simp [h, Symbol.code_inj]

/-- The digits of a frame that encodes a timestamp in range spell that timestamp (R105, R106 undone by R110). -/
theorem timestampOf_frameOf {W : Nat} (hW : 59 ≤ W) {t : Timestamp} (hy : yearInRange t = true)
    (hf : fieldsInRange t = true) : timestampOf ((frameOf W t).map Symbol.code) = t := by
  have hread : ∀ d, readDigit ((frameOf W t).map Symbol.code) d = digitOf t d :=
    fun d => readDigit_frameOf hW (digitOf_lt hy hf d).1
  rw [yearInRange_iff] at hy
  obtain ⟨sec, min, hr, day, year⟩ := t
  simp only [timestampOf, hread, digitOf, Timestamp.mk.injEq]
  simp only at hy
  omega

/-- DECODE accepts every encoded frame and answers the word of its timestamp. -/
theorem decodeFrame_frameOf {W : Nat} (hW : 59 ≤ W) {t : Timestamp} (hy : yearInRange t = true)
    (hf : fieldsInRange t = true) : decodeFrame W ((frameOf W t).map Symbol.code) = ⟨t.toWord, .ok⟩ := by
  have hts := timestampOf_frameOf hW hy hf
  refine decodeFrame_eq_ok.mpr
    ⟨by simp, fun i hi => ?positions, digitsDecimal_iff.mpr fun d hd => ?decimal, ?fields, ?word⟩
  case positions =>
    rw [frameOf_codes_getD t hi]
    exact positionOk_encodeSymbol t i
  case decimal =>
    obtain ⟨hlt, hle⟩ := digitOf_lt hy hf d
    rw [readDigit_frameOf hW hlt]
    exact hle hd
  case fields => rwa [hts]
  case word => rw [hts]

/-- Settles O45: the frame of a valid timestamp is accepted, its digits spell the timestamp, and the word of a word's
fields is the word. -/
theorem decodeInvertsEncode : Obligations.DecodeInvertsEncode := by
  intro c w hy hf
  have hW : 59 ≤ c.W := Nat.le_of_succ_le c.le_W
  refine ⟨_, encodeWord_valid c.W hy hf, ?_⟩
  rw [decodeFrame_frameOf hW hy hf, Timestamp.toWord_ofWord]

/-! ### ENCODE of an accepted frame -/

/-- The digits of the timestamp that a frame spells are the frame's, when the 4-bit ones are decimal (R116). -/
theorem digitOf_timestampOf {frame : List SymCode} (hdec : digitsDecimal frame = true) (d : Digit) :
    digitOf (timestampOf frame) d = readDigit frame d := by
  have hle := digitsDecimal_iff.mp hdec
  have secU := hle .secU rfl
  have minU := hle .minU rfl
  have hrU := hle .hrU rfl
  have dayU := hle .dayU rfl
  have dayT := hle .dayT rfl
  have yrU := hle .yrU rfl
  cases d <;> simp only [digitOf, timestampOf] <;> omega

/-- The symbol ENCODE puts at a position is the one that the accepted frame holds there. -/
theorem encodeSymbol_timestampOf {frame : List SymCode} (hdec : digitsDecimal frame = true) {i : Nat}
    (hpos : positionOk i (frame.getD i 0) = true) :
    (encodeSymbol (timestampOf frame) i).code = frame.getD i 0 := by
  obtain ⟨hmarker, hzero, hdata⟩ := positionOk_iff.mp hpos
  cases hd : dataAt i with
  | none =>
    cases hm : isMarker i with
    | true => rw [encodeSymbol_marker _ hm, hmarker hm]
    | false => rw [encodeSymbol_zero _ hm hd, hzero (by simp [isForcedZero, hm, hd])]
  | some p =>
    obtain ⟨d, wt⟩ := p
    obtain ⟨k, hk, rfl, rfl⟩ := dataAt_eq_some hd
    rw [encodeSymbol_data _ hd, digitOf_timestampOf hdec, readDigit_bit frame hk, oneAt]
    rcases hdata (Option.isSome_of_eq_some hd) with h | h <;> rw [h] <;> decide

/-- An accepted frame is the frame of the timestamp its digits spell. -/
theorem frameOf_timestampOf {W : Nat} {frame : List SymCode} (hlen : frame.length = W)
    (hpos : ∀ i, i < W → positionOk i (frame.getD i 0) = true) (hdec : digitsDecimal frame = true) :
    (frameOf W (timestampOf frame)).map Symbol.code = frame := by
  apply List.ext_getElem (by simp [hlen])
  intro i hi hi'
  have hiW : i < W := hlen ▸ hi'
  rw [← List.getD_eq_getElem _ 0 hi, ← List.getD_eq_getElem _ 0 hi', frameOf_codes_getD _ hiW]
  exact encodeSymbol_timestampOf hdec (hpos i hiW)

/-- A timestamp in range fits the port word. -/
theorem ofWord_toWord_of_inRange {t : Timestamp} (hy : yearInRange t = true) (hf : fieldsInRange t = true) :
    Timestamp.ofWord t.toWord = t := by
  rw [yearInRange_iff] at hy
  rw [fieldsInRange_iff] at hf
  apply Timestamp.ofWord_toWord <;> omega

/-- Settles O46: the accepted frame's digits are those of the timestamp it spells, so ENCODE writes the same frame. -/
theorem acceptedFramesAreEncodings : Obligations.AcceptedFramesAreEncodings := by
  intro c frame w h
  obtain ⟨hlen, hpos, hdec, hf, rfl⟩ := decodeFrame_eq_ok.mp h
  have hy := yearInRange_timestampOf hdec
  have hback := ofWord_toWord_of_inRange hy hf
  refine ⟨_, encodeWord_valid c.W (by rwa [hback]) (by rwa [hback]), rfl, ?_⟩
  rw [hback]
  exact frameOf_timestampOf hlen hpos hdec

end Sys2Proof.Machine

/-! PROOF. What an operation can do, once: which block it writes, which operation an edge selects, and the registers of
a block after one of its edges as a function of the inputs and of the pre-edge registers. -/

namespace Sys2Proof.Machine

/-! ### The blocks' operations are of their blocks (R82, 10_state.md R20) -/

theorem decodeVector_block3 {v : OpVector} (h : blockOf v = 0b011) : decodeVector v = decodeSequencer v := by
  obtain ⟨h8, h7, h6⟩ := getLsbD_of_blockOf_eq h
  rw [decodeVector, h8, h7, h6]
  rfl

theorem decodeVector_block4 {v : OpVector} (h : blockOf v = 0b100) : decodeVector v = decodeReceiver v := by
  obtain ⟨h8, h7, h6⟩ := getLsbD_of_blockOf_eq h
  rw [decodeVector, h8, h7, h6]
  rfl

/-- A vector whose block id names no block is refused (R88). -/
theorem exec_reservedBlock {v : OpVector} (h : blockOf v = 0b101 ∨ blockOf v = 0b110 ∨ blockOf v = 0b111) (s : State) :
    exec (decodeVector v) s = .refused .reservedBlock := by
  rcases h with h | h | h <;> obtain ⟨h8, h7, h6⟩ := getLsbD_of_blockOf_eq h <;> rw [decodeVector, h8, h7, h6] <;> rfl

/-- An operation of the encoder half writes the half only. -/
theorem setEnc_of_exec_decodeEncoder {v : OpVector} {s t : State} (h : exec (decodeEncoder v) s = .next t) :
    t = s.setEnc t.enc := by
  unfold decodeEncoder at h
  simp only at h
  split at h
  case h_1 =>
    cases h
    rfl
  case h_2 =>
    rw [exec, execEncHold, encEdge_eq_next] at h
    obtain ⟨-, rfl⟩ := h
    rfl
  case h_3 =>
    rw [exec, execEncTick, encEnabledEdge_eq_next] at h
    obtain ⟨sym, -, -, rfl⟩ := h
    rfl
  case h_4 =>
    rw [exec, execEncTickLast, encEnabledEdge_eq_next] at h
    obtain ⟨sym, -, -, rfl⟩ := h
    rfl

/-- An operation of the sequencer half writes the half only. -/
theorem setSeq_of_exec_decodeSequencer {v : OpVector} {s t : State} (h : exec (decodeSequencer v) s = .next t) :
    t = s.setSeq t.seq := by
  unfold decodeSequencer at h
  simp only at h
  split at h
  case h_1 =>
    cases h
    rfl
  case h_2 =>
    rw [exec, execSeqHold, seqEdge_eq_next] at h
    obtain ⟨-, rfl⟩ := h
    rfl
  case h_3 =>
    split at h
    case h_7 =>
      rw [exec, execSeqReservedPhase3] at h
      split at h <;> cases h
    all_goals
      simp only [exec, execSeqAwaitIdle, execSeqAwaitReq, execSeqLatchFirst, execSeqStreamIdle, execSeqStreamAdvance,
        execSeqStreamWrap, seqEdge_eq_next] at h
      obtain ⟨-, rfl⟩ := h
      rfl

/-- An operation of the receiver writes the receiver only. -/
theorem setRx_of_exec_decodeReceiver {v : OpVector} {s t : State} (h : exec (decodeReceiver v) s = .next t) :
    t = s.setRx t.rx := by
  unfold decodeReceiver at h
  simp only at h
  split at h
  case h_1 =>
    cases h
    rfl
  case h_5 =>
    split at h
    all_goals
      simp only [exec, execRxHigh, execRxLow, execRxFall, rxEdge_eq_next] at h
      obtain ⟨-, rfl⟩ := h
      rfl
  all_goals
    simp only [exec, execRxDoneHold, execRxEnd, execRxIdle, rxEdge_eq_next] at h
    obtain ⟨-, rfl⟩ := h
    rfl

/-- A codec operation drives its output port only. -/
theorem setEncOut_of_exec_encode {ctl : BitVec 6} {s t : State} (h : exec (.encode ctl) s = .next t) :
    t = s.setEncOut t.encOut := by
  cases hw : encodeWord s.cfg.W s.ports.tsIn with
  | none =>
    rw [exec_encode_none ctl hw] at h
    cases h
  | some out =>
    rw [exec_encode_some ctl hw] at h
    cases h
    rfl

/-- Settles O18: an operation is the decoding of its vector, and the block id says which decoder reads it. -/
theorem everyOperationWritesOnlyItsBlock : Obligations.EveryOperationWritesOnlyItsBlock := by
  intro i s t h
  have blocks : ∀ b : BitVec 3, b = 0b000 ∨ b = 0b001 ∨ b = 0b010 ∨ b = 0b011 ∨ b = 0b100 ∨
      b = 0b101 ∨ b = 0b110 ∨ b = 0b111 := by decide
  rw [← decodeVector_encode i] at h
  rcases blocks (blockOf (encode i)) with hb | hb | hb | hb | hb | hb
  · rw [decodeVector_block0 hb] at h
    exact .inl ⟨hb, setEncOut_of_exec_encode h⟩
  · rw [decodeVector_block1 hb] at h
    cases h
    exact .inr (.inl ⟨hb, rfl⟩)
  · rw [decodeVector_block2 hb] at h
    exact .inr (.inr (.inl ⟨hb, setEnc_of_exec_decodeEncoder h⟩))
  · rw [decodeVector_block3 hb] at h
    exact .inr (.inr (.inr (.inl ⟨hb, setSeq_of_exec_decodeSequencer h⟩)))
  · rw [decodeVector_block4 hb] at h
    exact .inr (.inr (.inr (.inr ⟨hb, setRx_of_exec_decodeReceiver h⟩)))
  · rw [exec_reservedBlock hb] at h
    cases h

/-! ### Which operation an edge selects (R83 to R85, 60_exceptions.md R238) -/

/-- Settles O52: the priorities are the order of the tests in the decoded vector. -/
theorem receiverPriorities : Obligations.ReceiverPriorities := by
  intro r rst valid sample ended i
  have hi := decode_rxVector r rst valid sample ended
  refine ⟨fun h0 => ?_, fun h0 h1 => ?_, fun h0 h1 h2 => ?_, fun h0 h1 h2 h3 => ?_, fun h0 h1 h2 h3 h4 => ?_,
    fun h0 h1 h2 h3 h4 h5 => ?_, fun h0 h1 h2 h3 h4 h5 => ?_⟩
  · simp [i, hi, h0]
  · simp [i, hi, h0, h1]
  · simp [i, hi, h0, h1, h2]
  · simp [i, hi, h0, h1, h2, h3]
  · simp [i, hi, h0, h1, h2, h3, h4]
  · simp [i, hi, h0, h1, h2, h3, h4, h5]
  · simp [i, hi, h0, h1, h2, h3, h4, h5]

/-- Settles O53: each half's vector decodes by `rst`, then `en`, then the register bits. -/
theorem transmitterOperationSelect : Obligations.TransmitterOperationSelect := by
  constructor
  · intro c e rst en spare i
    have hi := decode_encVector c e rst en spare
    refine ⟨fun h0 => ?_, fun h0 h1 => ?_, fun h0 h1 hc => ?_, fun h0 h1 hc => ?_⟩
    · simp [i, hi, h0]
    · simp [i, hi, h0, h1]
    · have hlast : encLast c e = false := by simp [encLast, hc]
      simp [i, hi, h0, h1, hlast]
    · have hlast : encLast c e = true := by simp [encLast, hc]
      simp [i, hi, h0, h1, hlast]
  · intro c q rst en req i last
    have hi := decode_seqVector c q rst en req
    have henabled : rst = false → en = true → i = enabledSeqOp q.phase req last := by
      rintro rfl rfl
      exact hi
    refine ⟨fun h0 => ?_, fun h0 h1 => ?_, fun h0 h1 hp hr => ?_, fun h0 h1 hp hr => ?_, fun h0 h1 hp => ?_,
      fun h0 h1 hp hr => ?_, fun h0 h1 hp hr hx => ?_, fun h0 h1 hp hr hx => ?_, fun h0 h1 hp => ?_⟩
    · simp [i, hi, h0, last]
    · simp [i, hi, h0, h1, last]
    · rw [henabled h0 h1, hp, hr, enabledSeqOp]
    · rw [henabled h0 h1, hp, hr, enabledSeqOp]
    · rw [henabled h0 h1, hp, enabledSeqOp]
    · rw [henabled h0 h1, hp, hr, enabledSeqOp]
    · have hlast : last = false := by simp [last, seqLast, hx]
      rw [henabled h0 h1, hp, hr, hlast, enabledSeqOp]
    · have hlast : last = true := by simp [last, seqLast, hx]
      rw [henabled h0 h1, hp, hr, hlast, enabledSeqOp]
    · rw [henabled h0 h1, hp, enabledSeqOp]

/-! ### The registers after an edge of the encoder half -/

/-- The encoder half after an edge with `sym` on `sym_in` (R143 to R146), whatever its counter holds. -/
def encAfter (c : Config) (rst en : Bool) (sym : Symbol) (e : EncRegs) : EncRegs :=
  if rst then (State.resetOf c).enc
  else if en then
    { e with cnt := if encLast c e then 0 else e.cnt + 1, level := high c.P sym e.cnt, reqQ := encLast c e }
  else e

@[simp] theorem encAfter_rst (c : Config) (en : Bool) (sym : Symbol) (e : EncRegs) :
    encAfter c true en sym e = (State.resetOf c).enc := rfl

@[simp] theorem encAfter_disabled (c : Config) (sym : Symbol) (e : EncRegs) : encAfter c false false sym e = e := rfl

/-- With the counter in its range the enabled edge is that of R171. -/
theorem encAfter_enabled {c : Config} {e : EncRegs} (sym : Symbol) (h : e.cnt < c.P) :
    encAfter c false true sym e = enabledEnc c sym e := by
  by_cases hl : e.cnt = c.P - 1
  · have hm : (c.P - 1 + 1) % c.P = 0 := by rw [Nat.sub_add_cancel c.P_pos, Nat.mod_self]
    simp [encAfter, enabledEnc, encLast, hl, hm]
  · have hm : (e.cnt + 1) % c.P = e.cnt + 1 := Nat.mod_eq_of_lt (by omega)
    simp [encAfter, enabledEnc, encLast, hl, hm]

/-- Everything an edge of the encoder half can do: it goes on when the half is reset or being reset and an enabled edge
finds a symbol on `sym_in`. -/
theorem exec_encVector_eq_next {s t : State} {rst en : Bool} {spare : BitVec 3} :
    exec (decodeVector (encVector s.cfg s.enc rst en spare)) s = .next t ↔
      ∃ sym, (rst = true ∨ s.enc.live = true ∧ (en = true → Symbol.ofCode s.ports.symIn = some sym)) ∧
        t = s.setEnc (encAfter s.cfg rst en sym s.enc) := by
  have anySymbol : Nonempty Symbol := ⟨.marker⟩
  rw [decode_encVector]
  cases rst with
  | true => simp [exec_encReset, eq_comm (a := t)]
  | false =>
    cases en with
    | false => simp [exec, execEncHold, encEdge_eq_next]
    | true =>
      cases hlast : encLast s.cfg s.enc with
      | true =>
        have hcnt : s.enc.cnt = s.cfg.P - 1 := by simpa [encLast] using hlast
        simp [exec, execEncTickLast, encEnabledEdge_eq_next, encAfter, hlast, hcnt, and_left_comm, and_assoc]
      | false => simp [exec, execEncTick, encEnabledEdge_eq_next, encAfter, hlast, and_left_comm, and_assoc]

/-- The same with a known symbol on `sym_in`. -/
theorem exec_encVector_symbol_eq_next {s t : State} {rst en : Bool} {spare : BitVec 3} {sym : Symbol}
    (hs : s.ports.symIn = sym.code) :
    exec (decodeVector (encVector s.cfg s.enc rst en spare)) s = .next t ↔
      (rst = true ∨ s.enc.live = true) ∧ t = s.setEnc (encAfter s.cfg rst en sym s.enc) := by
  rw [exec_encVector_eq_next, hs, Symbol.ofCode_code]
  constructor
  · rintro ⟨x, hgo, rfl⟩
    refine ⟨hgo.imp_right And.left, ?_⟩
    cases rst with
    | true => rfl
    | false =>
      cases en with
      | false => rfl
      | true =>
        obtain hrst | ⟨-, hx⟩ := hgo
        · cases hrst
        · rw [Option.some.inj (hx rfl)]
  · rintro ⟨hgo, ht⟩
    exact ⟨sym, hgo.imp_right fun hl => ⟨hl, fun _ => rfl⟩, ht⟩

/-! ### The registers after an edge of the sequencer half -/

/-- The sequencer half after an edge with `req` and `pending_frame` (R161 to R169); `none` is the refusal of phase
0b11. -/
def seqAfter (c : Config) (rst en req : Bool) (pending : Payload) (q : SeqRegs) : Option SeqRegs :=
  if rst then some (State.resetOf c).seq
  else if en then enabledSeq c pending req q
  else some q

@[simp] theorem seqAfter_rst (c : Config) (en req : Bool) (pending : Payload) (q : SeqRegs) :
    seqAfter c true en req pending q = some (State.resetOf c).seq := rfl

@[simp] theorem seqAfter_disabled (c : Config) (req : Bool) (pending : Payload) (q : SeqRegs) :
    seqAfter c false false req pending q = some q := rfl

@[simp] theorem seqAfter_enabled (c : Config) (req : Bool) (pending : Payload) (q : SeqRegs) :
    seqAfter c false true req pending q = enabledSeq c pending req q := rfl

/-- Every enabled operation of an unreset sequencer half is refused (R261). -/
theorem live_of_exec_enabledSeqOp {s t : State} {phase : Phase} {req last : Bool}
    (h : exec (enabledSeqOp phase req last) s = .next t) : s.seq.live = true := by
  unfold enabledSeqOp at h
  split at h
  case h_7 =>
    rw [exec, execSeqReservedPhase3] at h
    split at h <;> cases h
  all_goals
    simp only [exec, execSeqAwaitIdle, execSeqAwaitReq, execSeqLatchFirst, execSeqStreamIdle, execSeqStreamAdvance,
      execSeqStreamWrap, seqEdge_eq_next] at h
    exact h.1

/-- Everything an edge of the sequencer half can do. -/
theorem exec_seqVector_eq_next {s t : State} {rst en req : Bool} :
    exec (decodeVector (seqVector s.cfg s.seq rst en req)) s = .next t ↔
      (rst = true ∨ s.seq.live = true) ∧
        ∃ q, seqAfter s.cfg rst en req s.ports.pendingFrame s.seq = some q ∧ t = s.setSeq q := by
  rw [decode_seqVector]
  cases rst with
  | true => simp [exec_seqReset, eq_comm (a := t)]
  | false =>
    cases en with
    | false => simp [exec, execSeqHold, seqEdge_eq_next]
    | true =>
      have hlive : exec (enabledSeqOp s.seq.phase req (seqLast s.cfg s.seq)) s = .next t ↔
          s.seq.live = true ∧ exec (enabledSeqOp s.seq.phase req (seqLast s.cfg s.seq)) s = .next t :=
        ⟨fun h => ⟨live_of_exec_enabledSeqOp h, h⟩, And.right⟩
      rw [if_neg Bool.false_ne_true, if_neg (by decide), hlive, seqAfter_enabled]
      simp only [Bool.false_eq_true, false_or]
      refine and_congr_right fun hl => ?_
      rw [exec_enabledSeqOp req hl]
      cases enabledSeq s.cfg s.ports.pendingFrame req s.seq <;> simp [eq_comm (a := t)]

/-! ### The registers after an edge of the receiver -/

/-- A falling sample classifies the pulse (R208, R213). -/
def rxFallen (c : Config) (r : RxRegs) : RxRegs :=
  match classify c.P r.cnt with
  | some sym => appendSymbol c.W sym { r with cnt := 0, prev := false }
  | none => { r with cnt := 0, prev := false }

theorem execRxFall_eq (s : State) : execRxFall s = rxEdge s (rxFallen s.cfg) := rfl

/-- The receiver after a valid sample (R206 to R208). -/
def rxSample (c : Config) (sample : Bool) (r : RxRegs) : RxRegs :=
  if sample then { r with cnt := min (r.cnt + 1) c.P, prev := true }
  else if r.prev then rxFallen c r
  else { r with prev := false }

/-- The receiver after an edge (R202 to R208). -/
def rxAfter (c : Config) (rst valid sample ended : Bool) (r : RxRegs) : RxRegs :=
  if rst then (State.resetOf c).rx
  else if r.done then r
  else if ended then raiseRx .incompleteFrame r
  else if valid then rxSample c sample r
  else r

@[simp] theorem rxAfter_rst (c : Config) (valid sample ended : Bool) (r : RxRegs) :
    rxAfter c true valid sample ended r = (State.resetOf c).rx := rfl

/-- Everything an edge of the receiver can do. -/
theorem exec_rxVector_eq_next {s t : State} {rst valid sample ended : Bool} :
    exec (decodeVector (rxVector s.rx rst valid sample ended)) s = .next t ↔
      (rst = true ∨ s.rx.live = true) ∧ t = s.setRx (rxAfter s.cfg rst valid sample ended s.rx) := by
  rw [decode_rxVector]
  cases rst with
  | true => simp [exec_rxReset, eq_comm (a := t)]
  | false =>
    cases hdone : s.rx.done with
    | true => simp [exec, execRxDoneHold, rxEdge_eq_next, rxAfter, hdone]
    | false =>
      cases ended with
      | true => simp [exec, execRxEnd, rxEdge_eq_next, rxAfter, hdone]
      | false =>
        cases valid with
        | false => simp [exec, execRxIdle, rxEdge_eq_next, rxAfter, hdone]
        | true =>
          cases sample with
          | true => simp [exec, execRxHigh, rxEdge_eq_next, rxAfter, rxSample, hdone]
          | false =>
            cases hprev : s.rx.prev with
            | true => simp [exec, execRxFall_eq, rxEdge_eq_next, rxAfter, rxSample, hdone, hprev]
            | false => simp [exec, execRxLow, rxEdge_eq_next, rxAfter, rxSample, hdone, hprev]

end Sys2Proof.Machine

/-! PROOF. What a step can do, by its line: an edge of the set-up's blocks, a block driven alone, a codec line. -/

namespace Sys2Proof.Machine

/-! ### An edge (R171, 00_scope.md R4) -/

/-- The operations of `irig_tx` at one edge, from the presented state. -/
def txOps (d : TxDrive) (s : State) : Result :=
  andThen (exec (decodeVector (encVector s.cfg s.enc d.rst d.en 0)) s)
    (exec (decodeVector (seqVector s.cfg s.seq d.rst d.en (requestOut s.enc d.rst d.en))))

theorem runVectors_txVectors (s : State) (d : TxDrive) (ws : List Nat) :
    runVectors (txVectors s d ++ ws) s = andThen (txOps d s) (runVectors ws) := by
  rw [txOps, andThen_assoc, txVectors, List.cons_append, runVectors_cons, runVector_toNat]
  congr 1
  funext u
  rw [List.cons_append, runVectors_cons, runVector_toNat, List.nil_append]

theorem runVectors_rxVectors (s u : State) (r : RxDrive) :
    runVectors (rxVectors s r) u =
      exec (decodeVector (rxVector s.rx r.rst r.valid (sampleLevel s r.sample) r.ended)) u := by
  rw [rxVectors, runVectors_cons, runVector_toNat, andThen_runVectors_nil]

/-- The operations of `irig_rx` at one edge, from the presented state `s`, run on `u`. -/
def rxOps (s : State) (rx : Option RxDrive) (u : State) : Result :=
  rx.elim (.next u) fun r =>
    exec (decodeVector (rxVector s.rx r.rst r.valid (sampleLevel s r.sample) r.ended)) u

/-- An edge line: the operations of `irig_tx` if it is driven, then those of `irig_rx`. -/
theorem step_edge {s : State} {tx : Option TxDrive} {rx : Option RxDrive} {rest : List Line}
    (h : s.stimulus = .edge tx rx :: rest) :
    step s =
      (let s₀ := present (.edge tx rx) (s.setStimulus rest)
       andThen (tx.elim (.next s₀) fun d => txOps d s₀) (rxOps s₀ rx)) := by
  have hrx : ∀ s₀, runVectors (rx.elim [] (rxVectors s₀)) = rxOps s₀ rx := by
    intro s₀
    funext u
    cases rx with
    | none => rfl
    | some r => exact runVectors_rxVectors s₀ u r
  rw [step, h]
  simp only [applyLine, lineVectors]
  cases tx with
  | none => simp only [Option.elim_none, List.nil_append, andThen_next, hrx]
  | some d => simp only [Option.elim_some, runVectors_txVectors, hrx]

/-- Settles O8: the three operations of an edge, bracketed as the statement has them. -/
theorem stepRunsTheOperationsOfAnEdge : Obligations.StepRunsTheOperationsOfAnEdge := by
  intro s d r rest h
  rw [step_edge h]
  exact andThen_assoc _ _ _

/-- The encoder half after an edge line with the drive `tx`. -/
def edgeEnc (s : State) (tx : Option TxDrive) : EncRegs :=
  tx.elim s.enc fun d => encAfter s.cfg d.rst d.en (symbolOf s.seq) s.enc

/-- The sequencer half after an edge line with the drive `tx`; `none` is the refusal of phase 0b11. -/
def edgeSeq (s : State) (tx : Option TxDrive) : Option SeqRegs :=
  tx.elim (some s.seq) fun d =>
    seqAfter s.cfg d.rst d.en (requestOut s.enc d.rst d.en) (d.pend.getD s.ports.pendingFrame) s.seq

/-- The receiver after an edge line with the drive `rx`. -/
def edgeRx (s : State) (rx : Option RxDrive) : RxRegs :=
  rx.elim s.rx fun r => rxAfter s.cfg r.rst r.valid (sampleLevel s r.sample) r.ended s.rx

/-- Every driven block has been reset or is being reset (60_exceptions.md R246, host duty H1). -/
def edgeAccepted (s : State) (tx : Option TxDrive) (rx : Option RxDrive) : Prop :=
  (∀ d, tx = some d → d.rst = true ∨ s.enc.live = true ∧ s.seq.live = true) ∧
  (∀ r, rx = some r → r.rst = true ∨ s.rx.live = true)

theorem txOps_eq_next {s t : State} {d : TxDrive} (hs : s.ports.symIn = (symbolOf s.seq).code) :
    txOps d s = .next t ↔
      (d.rst = true ∨ s.enc.live = true ∧ s.seq.live = true) ∧
        ∃ q, seqAfter s.cfg d.rst d.en (requestOut s.enc d.rst d.en) s.ports.pendingFrame s.seq = some q ∧
          t = (s.setEnc (encAfter s.cfg d.rst d.en (symbolOf s.seq) s.enc)).setSeq q := by
  let u := s.setEnc (encAfter s.cfg d.rst d.en (symbolOf s.seq) s.enc)
  have hseq := exec_seqVector_eq_next (s := u) (t := t) (rst := d.rst) (en := d.en)
    (req := requestOut s.enc d.rst d.en)
  rw [txOps, andThen_eq_next]
  simp only [exec_encVector_symbol_eq_next hs]
  constructor
  · rintro ⟨_, ⟨he, rfl⟩, h⟩
    obtain ⟨hq, q, hsome, rfl⟩ := hseq.mp h
    refine ⟨?_, q, hsome, rfl⟩
    rcases he with he | he
    · exact .inl he
    · exact hq.imp_right fun hq => ⟨he, hq⟩
  · rintro ⟨hlive, q, hsome, rfl⟩
    exact ⟨u, ⟨hlive.imp_right And.left, rfl⟩, hseq.mpr ⟨hlive.imp_right And.right, q, hsome, rfl⟩⟩

theorem rxOps_eq_next {s u t : State} {rx : Option RxDrive} (hc : u.cfg = s.cfg) (hr : u.rx = s.rx) :
    rxOps s rx u = .next t ↔ (∀ r, rx = some r → r.rst = true ∨ s.rx.live = true) ∧ t = u.setRx (edgeRx s rx) := by
  rw [rxOps, edgeRx, ← hc, ← hr]
  cases rx with
  | none => simp [eq_comm (a := t)]
  | some r => simp [exec_rxVector_eq_next]

/-- Everything an edge line can do: each half and the receiver takes its registers from the pre-edge state. -/
theorem step_edge_eq_next {s t : State} {tx : Option TxDrive} {rx : Option RxDrive} {rest : List Line}
    (h : s.stimulus = .edge tx rx :: rest) :
    step s = .next t ↔
      edgeAccepted s tx rx ∧ ∃ q, edgeSeq s tx = some q ∧
        t = (((present (.edge tx rx) (s.setStimulus rest)).setEnc (edgeEnc s tx)).setSeq q).setRx (edgeRx s rx) := by
  let s₀ := present (.edge tx rx) (s.setStimulus rest)
  have hrx : edgeRx s₀ rx = edgeRx s rx := by
    cases rx with
    | none => rfl
    | some r => cases hsample : r.sample <;> simp [edgeRx, hsample, sampleLevel, s₀]
  rw [step_edge h, andThen_eq_next]
  cases tx with
  | none =>
    constructor
    · rintro ⟨u, hu, ht⟩
      cases hu
      obtain ⟨hr, rfl⟩ := (rxOps_eq_next (by rfl) (by rfl)).mp ht
      exact ⟨⟨nofun, hr⟩, s.seq, rfl, by rw [hrx]; rfl⟩
    · rintro ⟨⟨-, hr⟩, q, hq, rfl⟩
      cases hq
      exact ⟨s₀, rfl, (rxOps_eq_next (by rfl) (by rfl)).mpr ⟨hr, by rw [hrx]; rfl⟩⟩
  | some d =>
    constructor
    · rintro ⟨u, hu, ht⟩
      obtain ⟨hlive, q, hsome, rfl⟩ := (txOps_eq_next (s := s₀) rfl).mp hu
      obtain ⟨hr, rfl⟩ := (rxOps_eq_next (by rfl) (by rfl)).mp ht
      exact ⟨⟨fun _ hd => Option.some.inj hd ▸ hlive, hr⟩, q, hsome, by rw [hrx]; rfl⟩
    · rintro ⟨⟨hlive, hr⟩, q, hsome, rfl⟩
      exact ⟨_, (txOps_eq_next (s := s₀) rfl).mpr ⟨hlive d rfl, q, hsome, rfl⟩,
        (rxOps_eq_next (by rfl) (by rfl)).mpr ⟨hr, by rw [hrx]; rfl⟩⟩

/-- Settles O11: both sides say the same of the pre-edge registers, and the loop sample is the pre-edge level. -/
theorem blocksShareAnEdgeWithoutSeeingEachOther : Obligations.BlocksShareAnEdgeWithoutSeeingEachOther := by
  intro s d r t
  let r' : RxDrive := { r with sample := if sampleLevel s r.sample then .high else .low }
  have hlevel : sampleLevel s r'.sample = sampleLevel s r.sample := by
    simp only [r']
    cases sampleLevel s r.sample <;> rfl
  have hrx : edgeRx (s.setStimulus [rxOnly r']) (some r') =
      edgeRx (s.setStimulus [.edge (some d) (some r)]) (some r) :=
    congrArg (fun x => rxAfter s.cfg r.rst r.valid x r.ended s.rx) hlevel
  rw [step_edge_eq_next rfl]
  constructor
  · rintro ⟨⟨htx, hr⟩, q, hq, rfl⟩
    refine ⟨_, _, (step_edge_eq_next rfl).mpr ⟨⟨htx, nofun⟩, q, hq, rfl⟩,
      (step_edge_eq_next rfl).mpr ⟨⟨nofun, fun x hx => Option.some.inj hx ▸ hr r rfl⟩, _, rfl, rfl⟩, ?_⟩
    rw [← hrx]
    rfl
  · rintro ⟨a, b, ha, hb, rfl⟩
    obtain ⟨⟨htx, -⟩, q, hq, rfl⟩ := (step_edge_eq_next rfl).mp ha
    obtain ⟨⟨-, hr⟩, _, _, rfl⟩ := (step_edge_eq_next rfl).mp hb
    refine ⟨⟨htx, fun x hx => Option.some.inj hx ▸ hr r' rfl⟩, q, hq, ?_⟩
    rw [← hrx]
    rfl

/-! ### A codec line and a block driven alone (log 7, log 23) -/

theorem step_alone {s : State} {v : Nat} {sym : Option SymCode} {rest : List Line}
    (h : s.stimulus = .alone v sym :: rest) :
    step s =
      runVector (aloneVector (present (.alone v sym) (s.setStimulus rest)) v)
        (present (.alone v sym) (s.setStimulus rest)) := by
  rw [step, h]
  exact andThen_runVectors_nil _

theorem step_enc {s : State} {ts : TsWord} {rest : List Line} (h : s.stimulus = .enc ts :: rest) :
    step s = exec (.encode 0) (present (.enc ts) (s.setStimulus rest)) := by
  rw [step, h]
  exact andThen_runVectors_nil _

theorem step_dec {s : State} {frame : List SymCode} {rest : List Line} (h : s.stimulus = .dec frame :: rest) :
    step s = exec (.decode 0) (present (.dec frame) (s.setStimulus rest)) := by
  rw [step, h]
  exact andThen_runVectors_nil (runVector 0x040 _)

theorem step_nil {s : State} (h : s.stimulus = []) : step s = .next s := by
  rw [step, h]

/-- Settles O7: one lemma per form of the next line; a number runs the operation it decodes to. -/
theorem stepRunsTheDecodedOperation : Obligations.StepRunsTheDecodedOperation := by
  refine ⟨fun s v sym rest i h hi => ?decoded, fun s v sym rest e h he => ?noVector, fun s ts rest h => step_enc h,
    fun s frame rest h => step_dec h, fun s h => step_nil h⟩
  case decoded => rw [step_alone h, runVector, hi]
  case noVector => rw [step_alone h, runVector, he]

/-- Settles O9: the registers set for a word make its block form the word, which decodes to the operation. -/
theorem fetchWordIsTheNextOperation : Obligations.FetchWordIsTheNextOperation := by
  intro s nbits w i h
  have hw : decodeNat w = .ok i := by
    rw [decodeTableWord] at h
    cases hd : decodeNat w with
    | ok j =>
      rw [hd] at h
      exact congrArg Except.ok (Option.some.inj h)
    | error e =>
      rw [hd] at h
      cases h
  have hstim : (s.withFetchWord nbits w).stimulus = .alone w none :: (withVectorBits w s).stimulus := by
    rw [withVectorBits_stimulus]
    rfl
  have hs : (s.withFetchWord nbits w).setStimulus (withVectorBits w s).stimulus = withVectorBits w s :=
    State.setStimulus_self (withVectorBits w s)
  rw [step_alone hstim, hs, aloneVector_withVectorBits, runVector, hw]

theorem lt_of_block_bits :
    ∀ w : OpVector, w.getLsbD 8 = false → w.getLsbD 7 = false → w.getLsbD 6 = false → w.toNat < 64 := by decide

theorem le_of_block_bits :
    ∀ w : OpVector, w.getLsbD 8 = true → w.getLsbD 7 = true ∨ w.getLsbD 6 = true → 320 ≤ w.toNat := by decide

/-- What a number drives alone: the numbers below 320 are those of the five blocks, each block's vector is formed from
its registers, and every other number is refused. -/
theorem runVector_aloneVector (s : State) (v : Nat) :
    (v < 64 ∧ ∃ ctl, runVector (aloneVector s v) s = exec (.encode ctl) s) ∨
    (∃ ctl, runVector (aloneVector s v) s = exec (.decode ctl) s) ∨
    (∃ rst en spare, runVector (aloneVector s v) s = exec (decodeVector (encVector s.cfg s.enc rst en spare)) s) ∨
    (∃ rst en req, runVector (aloneVector s v) s = exec (decodeVector (seqVector s.cfg s.seq rst en req)) s) ∨
    (∃ rst valid sample ended,
      runVector (aloneVector s v) s = exec (decodeVector (rxVector s.rx rst valid sample ended)) s) ∨
    (320 ≤ v ∧ ∃ r, runVector (aloneVector s v) s = .refused r) := by
  by_cases hv : v < 512
  swap
  · right; right; right; right; right
    exact ⟨by omega, .notAnOperationVector, by simp [aloneVector, runVector, decodeNat, hv]⟩
  obtain ⟨w, rfl⟩ : ∃ w : OpVector, v = w.toNat := ⟨BitVec.ofNat 9 v, by simp; omega⟩
  rw [aloneVector, if_pos hv, BitVec.ofNat_toNat, BitVec.setWidth_eq]
  rcases h8 : w.getLsbD 8 <;> rcases h7 : w.getLsbD 7 <;> rcases h6 : w.getLsbD 6 <;>
    simp only [h8, h7, h6, runVector_toNat]
  · left
    exact ⟨lt_of_block_bits w h8 h7 h6, w.extractLsb' 0 6, by simp only [decodeVector, h8, h7, h6]⟩
  · right; left
    exact ⟨w.extractLsb' 0 6, by simp only [decodeVector, h8, h7, h6]⟩
  · right; right; left
    exact ⟨_, _, _, rfl⟩
  · right; right; right; left
    exact ⟨_, _, _, rfl⟩
  · right; right; right; right; left
    exact ⟨_, _, _, _, rfl⟩
  all_goals
    right; right; right; right; right
    exact ⟨le_of_block_bits w h8 (by simp [h7, h6]), .reservedBlock, by simp only [decodeVector, h8, h7, h6]; rfl⟩

/-! ### Every step -/

/-- What a step leaves and makes of the clocked blocks: each half and the receiver keeps its registers or takes those of
an edge of its own, for some inputs, and an unreset one only those of a reset edge (R261). -/
structure StepMoves (s t : State) : Prop where
  cfg : t.cfg = s.cfg
  enc : t.enc = s.enc ∨
    ∃ rst en sym, (rst = true ∨ s.enc.live = true) ∧ t.enc = encAfter s.cfg rst en sym s.enc
  seq : t.seq = s.seq ∨
    ∃ rst en req, (rst = true ∨ s.seq.live = true) ∧
      seqAfter s.cfg rst en req t.ports.pendingFrame s.seq = some t.seq
  rx : t.rx = s.rx ∨
    ∃ rst valid sample ended, (rst = true ∨ s.rx.live = true) ∧ t.rx = rxAfter s.cfg rst valid sample ended s.rx

theorem stepMoves_of_eq {s t : State} (hc : t.cfg = s.cfg) (he : t.enc = s.enc) (hq : t.seq = s.seq)
    (hr : t.rx = s.rx) : StepMoves s t := ⟨hc, .inl he, .inl hq, .inl hr⟩

theorem stepMoves_edge {s t : State} {tx : Option TxDrive} {rx : Option RxDrive} {rest : List Line}
    (h : s.stimulus = .edge tx rx :: rest) (hstep : step s = .next t) : StepMoves s t := by
  obtain ⟨⟨htx, hrx⟩, q, hq, rfl⟩ := (step_edge_eq_next h).mp hstep
  refine ⟨rfl, ?enc, ?seq, ?rx⟩
  case enc =>
    cases tx with
    | none => exact .inl rfl
    | some d => exact .inr ⟨_, _, _, (htx d rfl).imp_right And.left, rfl⟩
  case seq =>
    cases tx with
    | none => exact .inl (Option.some.inj hq).symm
    | some d => exact .inr ⟨_, _, _, (htx d rfl).imp_right And.right, hq⟩
  case rx =>
    cases rx with
    | none => exact .inl rfl
    | some r => exact .inr ⟨_, _, _, _, hrx r rfl, rfl⟩

/-- An operation of a block driven alone, from the presented state. -/
theorem stepMoves_runVector_aloneVector {s t : State} {v : Nat} (h : runVector (aloneVector s v) s = .next t) :
    StepMoves s t := by
  rcases runVector_aloneVector s v with ⟨-, ctl, hv⟩ | ⟨ctl, hv⟩ | ⟨rst, en, spare, hv⟩ | ⟨rst, en, req, hv⟩ |
    ⟨rst, valid, sample, ended, hv⟩ | ⟨-, r, hv⟩ <;> rw [hv] at h
  · rw [setEncOut_of_exec_encode h]
    exact stepMoves_of_eq rfl rfl rfl rfl
  · cases h
    exact stepMoves_of_eq rfl rfl rfl rfl
  · obtain ⟨sym, hlive, rfl⟩ := exec_encVector_eq_next.mp h
    exact ⟨rfl, .inr ⟨_, _, _, hlive.imp_right And.left, rfl⟩, .inl rfl, .inl rfl⟩
  · obtain ⟨hlive, q, hq, rfl⟩ := exec_seqVector_eq_next.mp h
    exact ⟨rfl, .inl rfl, .inr ⟨_, _, _, hlive, hq⟩, .inl rfl⟩
  · obtain ⟨hlive, rfl⟩ := exec_rxVector_eq_next.mp h
    exact ⟨rfl, .inl rfl, .inl rfl, .inr ⟨_, _, _, _, hlive, rfl⟩⟩
  · cases h

/-- Everything a step can do to the clocked blocks, whatever line it takes. -/
theorem step_moves {s t : State} (hstep : step s = .next t) : StepMoves s t := by
  cases h : s.stimulus with
  | nil =>
    rw [step_nil h] at hstep
    cases hstep
    exact stepMoves_of_eq rfl rfl rfl rfl
  | cons l rest =>
    cases l with
    | edge tx rx => exact stepMoves_edge h hstep
    | enc ts =>
      rw [step_enc h] at hstep
      rw [setEncOut_of_exec_encode hstep]
      exact stepMoves_of_eq rfl rfl rfl rfl
    | dec frame =>
      rw [step_dec h] at hstep
      cases hstep
      exact stepMoves_of_eq rfl rfl rfl rfl
    | alone v sym =>
      rw [step_alone h] at hstep
      obtain ⟨hc, he, hq, hr⟩ := stepMoves_runVector_aloneVector hstep
      exact ⟨hc, he, hq, hr⟩

/-- Settles O14: the configuration is the first field of `step_moves`. -/
theorem noStepChangesTheConfiguration : Obligations.NoStepChangesTheConfiguration :=
  fun _ _ hstep => (step_moves hstep).cfg

end Sys2Proof.Machine

/-! PROOF. The invariants of 10_state.md R40: the reset table meets them and every edge of a block keeps them; what
follows from them (the register widths of R11, the statuses of R76) and which steps they keep from being refused (R230,
R246). With them, the legal configurations (00_scope.md R12) and the writes to `buf` (20_memory.md R58). -/

namespace Sys2Proof.Machine

/-! ### The reset table (R39) -/

theorem resetOf_enc_inv (c : Config) : (State.resetOf c).enc.Inv c := ⟨c.P_pos, nofun⟩

theorem resetOf_seq_inv (c : Config) : (State.resetOf c).seq.Inv c where
  phase_named := nofun
  index_lt := c.W_pos
  index_zero _ := rfl
  await_unlatched _ := rfl
  buf_wires := wires_zero c.W
  latched_fresh := nofun

/-- Every element of the cleared symbol buffer is Zero, and so is the default past its end. -/
theorem getD_replicate_zero (n i : Nat) : (List.replicate n (0b00 : SymCode)).getD i 0 = Symbol.zero.code := by
  by_cases h : i < n <;> simp [List.getD, h, Symbol.code]

theorem resetOf_rx_inv (c : Config) : (State.resetOf c).rx.Inv c where
  cnt_le := Nat.zero_le _
  low_zero _ := rfl
  n_le := Nat.zero_le _
  full_done h := absurd h c.W_pos.ne
  done_cases := nofun
  running _ := ⟨rfl, rfl⟩
  error_ts h := absurd rfl h
  syms_length := List.length_replicate
  syms_rest i _ := getD_replicate_zero c.W i
  syms_codes x hx := by
    rw [List.eq_of_mem_replicate hx]
    decide

theorem resetOf_inv (c : Config) : (State.resetOf c).Inv :=
  ⟨fun _ => resetOf_enc_inv c, fun _ => resetOf_seq_inv c, fun _ => resetOf_rx_inv c⟩

/-- Settles O12: the three reset tables; at power-on every block is unreset, so nothing is claimed. -/
theorem resetSatisfiesTheInvariants : Obligations.ResetSatisfiesTheInvariants :=
  ⟨resetOf_inv, fun _ => ⟨nofun, nofun, nofun⟩, resetOf_inv _⟩

/-! ### The encoder half -/

/-- An enabled edge brings `cnt` back to 0 at the last tick, and sets the token only there. -/
theorem encAfter_inv {c : Config} {e : EncRegs} (rst en : Bool) (sym : Symbol) (h : rst = true ∨ e.Inv c) :
    (encAfter c rst en sym e).Inv c := by
  cases rst with
  | true => exact resetOf_enc_inv c
  | false =>
    have hinv : e.Inv c := h.resolve_left Bool.false_ne_true
    have hcnt := hinv.cnt_lt
    cases en with
    | false => exact hinv
    | true =>
      by_cases hlast : e.cnt = c.P - 1
      · exact ⟨by simp [encAfter, encLast, hlast, c.P_pos], by simp [encAfter, encLast, hlast]⟩
      · exact ⟨by simp [encAfter, encLast, hlast]; omega, by simp [encAfter, encLast, hlast]⟩

/-! ### The sequencer half -/

/-- The half in STREAM with an index in range and a wire-wide buffer: what every STREAM operation leaves. -/
theorem stream_inv {c : Config} {live fl : Bool} {index : Nat} {buf : Payload} (hindex : index < c.W)
    (hbuf : wires c.W buf = buf) (hfl : fl = true → index = 0) :
    (SeqRegs.mk live .stream index buf fl).Inv c where
  phase_named := nofun
  index_lt := hindex
  index_zero h := absurd rfl h
  await_unlatched := nofun
  buf_wires := hbuf
  latched_fresh h := ⟨rfl, hfl h⟩

/-- The half before STREAM: index 0, nothing latched yet. -/
theorem bootstrap_inv {c : Config} {live : Bool} {phase : Phase} {buf : Payload} (hphase : phase ≠ .code3)
    (hbuf : wires c.W buf = buf) : (SeqRegs.mk live phase 0 buf false).Inv c where
  phase_named := hphase
  index_lt := c.W_pos
  index_zero _ := rfl
  await_unlatched _ := rfl
  buf_wires := hbuf
  latched_fresh := nofun

theorem enabledSeq_inv {c : Config} {pending : Payload} {req : Bool} {q q' : SeqRegs} (hinv : q.Inv c)
    (h : enabledSeq c pending req q = some q') : q'.Inv c := by
  have hW : 0 < c.W := c.W_pos
  have hindex := hinv.index_lt
  have hbuf := hinv.buf_wires
  obtain ⟨live, phase, index, buf, fl⟩ := q
  cases phase with
  | await => cases req <;> cases h <;> exact bootstrap_inv nofun hbuf
  | latch =>
    cases h
    exact stream_inv hW (wires_wires _ _) fun _ => rfl
  | stream =>
    cases req with
    | false =>
      cases h
      exact stream_inv hindex hbuf nofun
    | true =>
      simp only [enabledSeq] at h hindex
      split at h
      · cases h
        exact stream_inv hW (wires_wires _ _) fun _ => rfl
      · cases h
        exact stream_inv (by omega) hbuf nofun
  | code3 => cases h

theorem seqAfter_inv {c : Config} {rst en req : Bool} {pending : Payload} {q q' : SeqRegs} (hq : rst = true ∨ q.Inv c)
    (h : seqAfter c rst en req pending q = some q') : q'.Inv c := by
  cases rst with
  | true =>
    cases h
    exact resetOf_seq_inv c
  | false =>
    have hinv : q.Inv c := hq.resolve_left Bool.false_ne_true
    cases en with
    | false =>
      cases h
      exact hinv
    | true => exact enabledSeq_inv hinv h

/-! ### The receiver -/

theorem raiseRx_inv {c : Config} {r : RxRegs} (hinv : r.Inv c) (hdone : r.done = false) :
    (raiseRx .incompleteFrame r).Inv c where
  cnt_le := hinv.cnt_le
  low_zero := hinv.low_zero
  n_le := hinv.n_le
  full_done _ := rfl
  done_cases _ := .inr ⟨lt_of_le_of_ne hinv.n_le fun h => by simp [hinv.full_done h] at hdone, rfl⟩
  running := nofun
  error_ts _ := rfl
  syms_length := hinv.syms_length
  syms_rest := hinv.syms_rest
  syms_codes := hinv.syms_codes

/-- Changing the pulse counter and the last sample of a running receiver, the counter 0 after a low sample. -/
theorem setPulse_inv {c : Config} {r : RxRegs} {prev : Bool} {cnt : Nat} (hinv : r.Inv c) (hcnt : cnt ≤ c.P)
    (hlow : prev = false → cnt = 0) : { r with cnt := cnt, prev := prev }.Inv c :=
  { hinv with cnt_le := hcnt, low_zero := hlow }

/-- Appending a symbol to a running receiver: the W-th one ends the call with one of DECODE's two answers. -/
theorem appendSymbol_inv {c : Config} {r : RxRegs} {sym : Symbol} (hinv : r.Inv c) (hdone : r.done = false) :
    (appendSymbol c.W sym r).Inv c := by
  have hn : r.n < c.W := lt_of_le_of_ne hinv.n_le fun h => by simp [hinv.full_done h] at hdone
  have hlength : (r.syms.set r.n sym.code).length = c.W := by simpa using hinv.syms_length
  have hrest : ∀ i, r.n + 1 ≤ i → (r.syms.set r.n sym.code).getD i 0 = Symbol.zero.code := by
    intro i hi
    rw [List.getD_eq_getElem?_getD, List.getElem?_set_ne (by omega), ← List.getD_eq_getElem?_getD]
    exact hinv.syms_rest i (by omega)
  have hcodes : ∀ x ∈ r.syms.set r.n sym.code, x ≠ 0b11 := by
    intro x hx
    rcases List.mem_or_eq_of_mem_set hx with hx | rfl
    · exact hinv.syms_codes x hx
    · exact sym.code_ne_three
  by_cases hlast : r.n + 1 = c.W
  · rw [appendSymbol_last hlast]
    have hstatus := decodeFrame_cases c.W (r.syms.set r.n sym.code)
    exact
      { cnt_le := hinv.cnt_le
        low_zero := hinv.low_zero
        n_le := hlast.le
        full_done := fun _ => rfl
        done_cases := fun _ => .inl ⟨hlast, hstatus.imp (fun h => by rw [h]) fun h => by rw [h]⟩
        running := nofun
        error_ts := fun hne => hstatus.elim (fun h => absurd (by rw [h]) hne) fun h => by rw [h]
        syms_length := hlength
        syms_rest := hrest
        syms_codes := hcodes }
  · rw [appendSymbol_of_ne hlast]
    exact
      { cnt_le := hinv.cnt_le
        low_zero := hinv.low_zero
        n_le := hn
        full_done := fun h => absurd h hlast
        done_cases := fun h => by simp [hdone] at h
        running := fun _ => hinv.running hdone
        error_ts := hinv.error_ts
        syms_length := hlength
        syms_rest := hrest
        syms_codes := hcodes }

theorem rxFallen_inv {c : Config} {r : RxRegs} (hinv : r.Inv c) (hdone : r.done = false) : (rxFallen c r).Inv c := by
  have hclear : { r with cnt := 0, prev := false }.Inv c := setPulse_inv hinv (Nat.zero_le _) fun _ => rfl
  rw [rxFallen]
  cases classify c.P r.cnt with
  | none => exact hclear
  | some sym => exact appendSymbol_inv hclear hdone

theorem rxSample_inv {c : Config} {r : RxRegs} (sample : Bool) (hinv : r.Inv c) (hdone : r.done = false) :
    (rxSample c sample r).Inv c := by
  cases sample with
  | true => exact setPulse_inv hinv (Nat.min_le_right _ _) nofun
  | false =>
    cases hprev : r.prev with
    | true =>
      rw [rxSample, if_neg Bool.false_ne_true, if_pos hprev]
      exact rxFallen_inv hinv hdone
    | false =>
      rw [rxSample, if_neg Bool.false_ne_true, if_neg (by simp [hprev])]
      exact setPulse_inv hinv hinv.cnt_le fun _ => hinv.low_zero hprev

theorem rxAfter_inv {c : Config} {r : RxRegs} (rst valid sample ended : Bool) (h : rst = true ∨ r.Inv c) :
    (rxAfter c rst valid sample ended r).Inv c := by
  cases rst with
  | true => exact resetOf_rx_inv c
  | false =>
    have hinv : r.Inv c := h.resolve_left Bool.false_ne_true
    cases hdone : r.done with
    | true => simpa [rxAfter, hdone] using hinv
    | false =>
      cases ended with
      | true => simpa [rxAfter, hdone] using raiseRx_inv hinv hdone
      | false =>
        cases valid with
        | true => simpa [rxAfter, hdone] using rxSample_inv sample hinv hdone
        | false => simpa [rxAfter, hdone] using hinv

/-! ### Every step -/

/-- Settles O13: a block that the step drives takes the registers of one of its edges, which keeps its invariants. -/
theorem everyStepKeepsTheInvariants : Obligations.EveryStepKeepsTheInvariants := by
  intro s t hinv hstep
  obtain ⟨hc, he, hq, hr⟩ := step_moves hstep
  refine ⟨fun hlive => ?enc, fun hlive => ?seq, fun hlive => ?rx⟩ <;> rw [hc]
  case enc =>
    rcases he with he | ⟨rst, en, sym, hrun, he⟩
    · exact he ▸ hinv.enc (he ▸ hlive)
    · exact he ▸ encAfter_inv rst en sym (hrun.imp_right hinv.enc)
  case seq =>
    rcases hq with hq | ⟨rst, en, req, hrun, hq⟩
    · exact hq ▸ hinv.seq (hq ▸ hlive)
    · exact seqAfter_inv (hrun.imp_right hinv.seq) hq
  case rx =>
    rcases hr with hr | ⟨rst, valid, sample, ended, hrun, hr⟩
    · exact hr ▸ hinv.rx (hr ▸ hlive)
    · exact hr ▸ rxAfter_inv rst valid sample ended (hrun.imp_right hinv.rx)

/-! ### The widths of the registers (R11) -/

theorem W_le_two_pow_idxBits (c : Config) : c.W ≤ 2 ^ c.idxBits := by
  rcases c.W_cases with h | h <;> simp [Config.idxBits, h]

/-- Settles O17: P and P + 1 are at most two to the power of their logarithms, and W of its table value. -/
theorem countersFitTheirWidths : Obligations.CountersFitTheirWidths := by
  intro s hinv
  refine ⟨fun hl => ?enc, fun hl => ?seq, fun hl => ⟨?rxCnt, ?rxN⟩⟩
  case enc =>
    calc s.enc.cnt < s.cfg.P := (hinv.enc hl).cnt_lt
      _ ≤ 2 ^ Nat.clog 2 s.cfg.P := Nat.le_pow_clog (by decide) _
      _ ≤ 2 ^ s.cfg.cntBits := Nat.pow_le_pow_right (by decide) (Nat.le_max_right _ _)
  case seq => exact (hinv.seq hl).index_lt.trans_le (W_le_two_pow_idxBits s.cfg)
  case rxCnt => exact (Nat.lt_succ_of_le (hinv.rx hl).cnt_le).trans_le (Nat.le_pow_clog (by decide) _)
  case rxN =>
    have hn := (hinv.rx hl).n_le
    have hW := s.cfg.W_le
    omega

/-! ### Elaboration (R6, R12) -/

theorem ofName_eq_none {name : Char} :
    Variant.ofName name = none ↔ name ≠ 'A' ∧ name ≠ 'B' ∧ name ≠ 'D' ∧ name ≠ 'E' ∧ name ≠ 'G' ∧ name ≠ 'H' := by
  unfold Variant.ofName
  split <;> simp_all

/-- Settles O15: the tests of `Config.elaborate` in their order. -/
theorem elaborationBuildsOnlyLegalInstances : Obligations.ElaborationBuildsOnlyLegalInstances := by
  refine ⟨fun name w p h => ?unknown, fun name => ofName_eq_none, fun name v w p h hok => ?legal,
    fun name v w p h hbad => ?illegal, ⟨rfl, rfl, rfl, rfl, rfl, rfl⟩⟩
  case unknown => rw [Config.elaborate, h]
  case legal =>
    obtain ⟨hw, hp⟩ := hok
    refine ⟨⟨v, p.toNat - 1⟩, ?_, hw.symm, ?_⟩
    · simp only [Config.elaborate, h]
      rw [if_neg (not_not.mpr hw), if_neg (by omega)]
    · simp only [Config.P]
      omega
  case illegal =>
    simp only [Config.elaborate, h]
    by_cases hw : w = v.width
    · exact ⟨.illegalPulse, by rw [if_neg (not_not.mpr hw), if_pos (by omega)], nofun⟩
    · exact ⟨.illegalWidth, if_pos hw, nofun⟩

/-! ### Which steps go on (60_exceptions.md R230, R246) -/

/-- Only phase 0b11 refuses an edge of the sequencer half (R170). -/
theorem seqAfter_isSome {c : Config} {rst en req : Bool} {pending : Payload} {q : SeqRegs}
    (h : rst = true ∨ en = false ∨ q.phase ≠ .code3) : ∃ q', seqAfter c rst en req pending q = some q' := by
  cases rst with
  | true => exact ⟨_, rfl⟩
  | false =>
    cases en with
    | false => exact ⟨_, rfl⟩
    | true =>
      obtain ⟨live, phase, index, buf, fl⟩ := q
      rw [seqAfter_enabled]
      cases phase with
      | await => cases req <;> exact ⟨_, rfl⟩
      | latch => exact ⟨_, rfl⟩
      | stream =>
        cases req with
        | false => exact ⟨_, rfl⟩
        | true =>
          simp only [enabledSeq]
          split <;> exact ⟨_, rfl⟩
      | code3 => simp at h

/-- An edge line goes on when every driven block is reset or being reset and no enabled one is in phase 0b11. -/
theorem step_edge_goesOn {s : State} {tx : Option TxDrive} {rx : Option RxDrive} {rest : List Line}
    (h : s.stimulus = .edge tx rx :: rest) (hacc : edgeAccepted s tx rx)
    (hphase : ∀ d, tx = some d → d.rst = true ∨ d.en = false ∨ s.seq.phase ≠ .code3) : ∃ t, step s = .next t := by
  have hq : ∃ q, edgeSeq s tx = some q := by
    cases tx with
    | none => exact ⟨_, rfl⟩
    | some d => exact seqAfter_isSome (hphase d rfl)
  obtain ⟨q, hq⟩ := hq
  exact ⟨_, (step_edge_eq_next h).mpr ⟨hacc, q, hq, rfl⟩⟩

/-- Settles O30: the encoder half goes on and the sequencer half selects the reserved vector; a reset or disabled edge
does not read the phase. -/
theorem unnamedPhaseIsRefusedAtAnEnabledEdge : Obligations.UnnamedPhaseIsRefusedAtAnEnabledEdge := by
  constructor
  · intro s d rest h hp he hq hr hen
    let s₀ := present (txOnly d) (s.setStimulus rest)
    have henc : exec (decodeVector (encVector s.cfg s.enc d.rst d.en 0)) s₀ =
        .next (s₀.setEnc (encAfter s.cfg d.rst d.en (symbolOf s.seq) s.enc)) :=
      (exec_encVector_symbol_eq_next (s := s₀) rfl).mpr ⟨.inr he, rfl⟩
    have hop : decodeVector (seqVector s.cfg s.seq d.rst d.en (requestOut s.enc d.rst d.en)) =
        .seqReservedPhase3 (requestOut s.enc d.rst d.en) (seqLast s.cfg s.seq) := by
      rw [decode_seqVector, hr, hen, hp]
      rfl
    rw [step_txOnly h, hop]
    exact (congrArg (andThen · _) henc).trans
      (exec_seqReservedPhase3_live (s := s₀.setEnc _) (requestOut s.enc d.rst d.en) (seqLast s.cfg s.seq) hq)
  · intro s d rest h hp he hq hd
    exact step_edge_goesOn h ⟨fun _ _ => .inr ⟨he, hq⟩, nofun⟩
      fun d' hd' => Option.some.inj hd' ▸ hd.imp_right Or.inl

/-- A block driven alone goes on under host duties H1 and H4 (R246). -/
theorem runVector_aloneVector_goesOn {s : State} {v : Nat} (hinv : s.Inv) (hv : v < 320) (he : s.enc.live = true)
    (hq : s.seq.live = true) (hr : s.rx.live = true) (hsym : s.ports.symIn ≠ 0b11)
    (hts : 64 ≤ v ∨ yearInRange (Timestamp.ofWord s.ports.tsIn) = false ∨
      fieldsInRange (Timestamp.ofWord s.ports.tsIn) = true) :
    ∃ t, runVector (aloneVector s v) s = .next t := by
  rcases runVector_aloneVector s v with ⟨hv64, ctl, h⟩ | ⟨ctl, h⟩ | ⟨rst, en, spare, h⟩ | ⟨rst, en, req, h⟩ |
    ⟨rst, valid, sample, ended, h⟩ | ⟨hv', -⟩
  · cases hw : encodeWord s.cfg.W s.ports.tsIn with
    | none =>
      obtain ⟨hy, hf⟩ := encodeWord_eq_none.mp hw
      simp [hy, hf] at hts
      omega
    | some out => exact ⟨_, h.trans (exec_encode_some ctl hw)⟩
  · exact ⟨_, h⟩
  · cases hs : Symbol.ofCode s.ports.symIn with
    | none => exact absurd (Symbol.ofCode_eq_none.mp hs) hsym
    | some sym => exact ⟨_, h.trans (exec_encVector_eq_next.mpr ⟨sym, .inr ⟨he, fun _ => hs⟩, rfl⟩)⟩
  · obtain ⟨q, hsome⟩ := seqAfter_isSome (c := s.cfg) (rst := rst) (en := en) (req := req)
      (pending := s.ports.pendingFrame) (.inr (.inr (hinv.seq hq).phase_named))
    exact ⟨_, h.trans (exec_seqVector_eq_next.mpr ⟨.inr hq, q, hsome, rfl⟩)⟩
  · exact ⟨_, h.trans (exec_rxVector_eq_next.mpr ⟨.inr hr, rfl⟩)⟩
  · omega

/-- Settles O16: by the form of the line; the invariants keep the phase named, the wiring keeps `sym_in` a symbol. -/
theorem acceptedLinesAreNeverRefused : Obligations.AcceptedLinesAreNeverRefused := by
  intro s l rest hinv h hacc
  cases l with
  | edge tx rx =>
    obtain ⟨htx, hrx⟩ := hacc
    refine step_edge_goesOn h ⟨htx, hrx⟩ fun d hd => ?_
    rcases htx d hd with hrst | ⟨-, hq⟩
    · exact .inl hrst
    · exact .inr (.inr (hinv.seq hq).phase_named)
  | enc ts =>
    rw [step_enc h]
    cases hw : encodeWord s.cfg.W ts with
    | none =>
      obtain ⟨hy, hf⟩ := encodeWord_eq_none.mp hw
      rcases hacc with h' | h' <;> simp [hy, hf] at h'
    | some out => exact ⟨_, exec_encode_some 0 hw⟩
  | dec frame => exact ⟨_, step_dec h⟩
  | alone v sym =>
    obtain ⟨hv, he, hq, hr, hsym, hts⟩ := hacc
    rw [step_alone h]
    have hcode : sym.getD (symbolOf s.seq).code ≠ 0b11 := by
      cases sym with
      | none => exact (symbolOf s.seq).code_ne_three
      | some c => exact fun hc => hsym (congrArg some hc)
    exact runVector_aloneVector_goesOn ⟨hinv.enc, hinv.seq, hinv.rx⟩ hv he hq hr hcode hts

/-! ### When `buf` changes (R58, R174) -/

theorem buf_of_enabledSeq {c : Config} {pending : Payload} {req : Bool} {q q' : SeqRegs}
    (h : enabledSeq c pending req q = some q') :
    q'.buf = q.buf ∨ q'.index = 0 ∧ q'.flQ = true ∧ q'.buf = wires c.W pending := by
  obtain ⟨live, phase, index, buf, fl⟩ := q
  cases phase with
  | await => cases req <;> cases h <;> exact .inl rfl
  | latch =>
    cases h
    exact .inr ⟨rfl, rfl, rfl⟩
  | stream =>
    cases req with
    | false =>
      cases h
      exact .inl rfl
    | true =>
      simp only [enabledSeq] at h
      split at h <;> cases h
      · exact .inr ⟨rfl, rfl, rfl⟩
      · exact .inl rfl
  | code3 => cases h

/-- Settles O34: of the edges of the sequencer half only the reset and the two latches write `buf`. -/
theorem bufferChangesOnlyAtALatch : Obligations.BufferChangesOnlyAtALatch := by
  intro s t hstep hne
  rcases (step_moves hstep).seq with hq | ⟨rst, en, req, -, hq⟩
  · exact absurd (congrArg SeqRegs.buf hq) hne
  cases rst with
  | true =>
    rw [seqAfter_rst, Option.some.injEq] at hq
    rw [← hq]
    exact ⟨rfl, .inl ⟨rfl, rfl⟩⟩
  | false =>
    cases en with
    | false =>
      rw [seqAfter_disabled, Option.some.injEq] at hq
      exact absurd (congrArg SeqRegs.buf hq).symm hne
    | true =>
      obtain ⟨hindex, hfl, hbuf⟩ := (buf_of_enabledSeq hq).resolve_left hne
      exact ⟨hindex, .inr ⟨hfl, hbuf⟩⟩

/-! ### The outputs of the receiver (30_encoding.md R81) -/

/-- Above the elements of a frame its symbol vector is 0. -/
theorem symbolVector_getLsbD_of_le {codes : List SymCode} (hlen : codes.length ≤ 100) {i : Nat}
    (hi : 2 * codes.length ≤ i) : (symbolVector codes).getLsbD i = false := by
  have hlt : packCodes codes < 2 ^ i :=
    calc packCodes codes < 4 ^ codes.length := packCodes_lt codes
      _ = 2 ^ (2 * codes.length) := (Nat.pow_mul 2 2 _).symm
      _ ≤ 2 ^ i := Nat.pow_le_pow_right (by decide) hi
  rw [BitVec.getLsbD, symbolVector_toNat hlen, Nat.testBit_lt_two_pow hlt]

/-- The statuses that a reset receiver shows (R40, R76). -/
theorem status_cases {c : Config} {r : RxRegs} (hinv : r.Inv c) :
    r.status = .ok ∨ r.status = .malformedFrame ∨ r.status = .incompleteFrame := by
  cases hdone : r.done with
  | false => exact .inl (hinv.running hdone).1
  | true =>
    rcases hinv.done_cases hdone with ⟨-, h | h⟩ | ⟨-, h⟩
    · exact .inl h
    · exact .inr (.inl h)
    · exact .inr (.inr h)

/-- Settles O58: the outputs are read off; the statuses and the zero timestamps are those of the invariants. -/
theorem receiverOutputsAreItsRegisters : Obligations.ReceiverOutputsAreItsRegisters := by
  refine ⟨fun s => ⟨rfl, rfl, rfl, ?code⟩, fun s i hlen hi => ?element,
    fun s i hlen hi => symbolVector_getLsbD_of_le hlen hi, fun s hinv hl => ⟨?statuses, fun hts => ?okDone⟩⟩
  case code => cases h : s.rx.status <;> simp [rxOut, h, Status.code]
  case element => exact frameVectorsHoldTheirElements.1 s.rx.syms i hlen hi
  case statuses => rcases status_cases (hinv.rx hl) with h | h | h <;> simp [rxOut, h, Status.code]
  case okDone =>
    have hok : s.rx.status = .ok := by_contra fun h => hts ((hinv.rx hl).error_ts h)
    have hdone : s.rx.done = true := by
      cases hd : s.rx.done with
      | true => rfl
      | false => exact absurd ((hinv.rx hl).running hd).2 hts
    exact ⟨hdone, congrArg Status.code hok⟩

end Sys2Proof.Machine

/-! PROOF. Edges of `irig_tx`: the request token (41_symbol_encoder.md R147), the sampling of `pending_frame`
(20_memory.md R59), runs of edges with disabled ones among them (42_frame_sequencer.md R177), a symbol held through a
bit period (R149). -/

namespace Sys2Proof.Machine

/-! ### The request token (R147) -/

theorem requestOut_iff (e : EncRegs) (rst en : Bool) :
    requestOut e rst en = true ↔ e.reqQ = true ∧ en = true ∧ rst = false := by
  simp [requestOut, and_assoc]

/-- Settles O33: the gate of the output, and what an enabled edge with a request and a disabled edge make of the two
halves. -/
theorem requestTokenIsPresentedAndReplaced : Obligations.RequestTokenIsPresentedAndReplaced := by
  refine ⟨requestOut_iff, fun s d rest t h hreq hstep => ?request, fun s d rest t h hr hen hstep => ?disabled⟩
  case request =>
    obtain ⟨-, hen, hr⟩ := (requestOut_iff _ _ _).mp hreq
    obtain ⟨-, q, hq, rfl⟩ := (step_edge_eq_next h).mp hstep
    rw [edgeSeq, Option.elim_some, hreq, hr, hen, seqAfter_enabled] at hq
    refine ⟨by simp [edgeEnc, encAfter, hr, hen], fun hp => ?_, fun hp => ?_⟩
    · obtain rfl : { s.seq with phase := .latch, index := 0, flQ := false } = q := by simpa [enabledSeq, hp] using hq
      rfl
    · simp only [enabledSeq, hp] at hq
      split at hq <;> cases hq <;> simp [*]
  case disabled =>
    obtain ⟨-, q, hq, rfl⟩ := (step_edge_eq_next h).mp hstep
    rw [edgeSeq, Option.elim_some, hr, hen, seqAfter_disabled] at hq
    exact ⟨by simp [edgeEnc, hr, hen], (Option.some.inj hq).symm⟩

/-! ### `pending_frame` is read at a latch edge only (R59) -/

theorem enabledSeq_pending {c : Config} {req : Bool} {q : SeqRegs}
    (h : ¬(q.phase = .latch ∨ q.phase = .stream ∧ req = true ∧ q.index = c.W - 1)) (p p' : Payload) :
    enabledSeq c p req q = enabledSeq c p' req q := by
  obtain ⟨live, phase, index, buf, fl⟩ := q
  cases phase with
  | await => cases req <;> rfl
  | latch => exact absurd (.inl rfl) h
  | stream =>
    cases req with
    | false => rfl
    | true =>
      have hi : index ≠ c.W - 1 := fun hi => h (.inr ⟨rfl, rfl, hi⟩)
      simp only [enabledSeq, if_neg hi]
  | code3 => rfl

theorem seqAfter_pending {c : Config} {rst en req : Bool} {q : SeqRegs}
    (h : rst = false → en = true → ¬(q.phase = .latch ∨ q.phase = .stream ∧ req = true ∧ q.index = c.W - 1))
    (p p' : Payload) : seqAfter c rst en req p q = seqAfter c rst en req p' q := by
  cases rst with
  | true => rfl
  | false =>
    cases en with
    | false => rfl
    | true => exact enabledSeq_pending (h rfl rfl) p p'

/-- Settles O35: only the two latches read the port, so the sequencer half is the same. -/
theorem pendingFrameIsSampledOnlyAtALatch : Obligations.PendingFrameIsSampledOnlyAtALatch := by
  intro s d rest p h hpend hno t hstep
  obtain ⟨rst, en, pend⟩ := d
  obtain rfl : pend = none := hpend
  obtain ⟨hacc, q, hq, rfl⟩ := (step_edge_eq_next h).mp hstep
  refine (step_edge_eq_next (s := s.setPorts { s.ports with pendingFrame := p }) h).mpr ⟨hacc, q, ?_, rfl⟩
  refine (seqAfter_pending (fun hr hen hlatch => hno ⟨hr, hen, ?_⟩) p s.ports.pendingFrame).trans hq
  simp only at hr hen
  subst hr hen
  simpa only [State.setPorts_enc, State.setPorts_seq, State.setPorts_cfg, requestOut_enabled] using hlatch

/-! ### Runs of edges of `irig_tx` -/

/-- What an edge of `irig_tx` reads: the configuration, `pending_frame`, both halves. -/
structure TxView where
  cfg     : Config
  pending : Payload
  enc     : EncRegs
  seq     : SeqRegs

def txView (s : State) : TxView := ⟨s.cfg, s.ports.pendingFrame, s.enc, s.seq⟩

/-- Both halves are out of "unreset" (70_reset_and_hazards.md R261). -/
def TxView.Live (v : TxView) : Prop := v.enc.live = true ∧ v.seq.live = true

/-- The view after an edge; `none` is the refusal of phase 0b11. -/
def TxView.next (d : TxDrive) (v : TxView) : Option TxView :=
  (seqAfter v.cfg d.rst d.en (requestOut v.enc d.rst d.en) (d.pend.getD v.pending) v.seq).map fun q =>
    ⟨v.cfg, d.pend.getD v.pending, encAfter v.cfg d.rst d.en (symbolOf v.seq) v.enc, q⟩

/-- The view after a run of edges. -/
def TxView.run (ds : List TxDrive) (v : TxView) : Option TxView := ds.foldlM (fun v d => v.next d) v

@[simp] theorem TxView.run_nil (v : TxView) : v.run [] = some v := rfl

@[simp] theorem TxView.run_cons (d : TxDrive) (ds : List TxDrive) (v : TxView) :
    v.run (d :: ds) = (v.next d).bind fun w => w.run ds := rfl

theorem TxView.run_append (ds es : List TxDrive) (v : TxView) :
    v.run (ds ++ es) = (v.run ds).bind fun w => w.run es := List.foldlM_append ..

theorem encAfter_live {c : Config} {rst en : Bool} {sym : Symbol} {e : EncRegs} (h : rst = true ∨ e.live = true) :
    (encAfter c rst en sym e).live = true := by
  cases rst with
  | true => rfl
  | false => cases en <;> exact h.resolve_left Bool.false_ne_true

theorem enabledSeq_live {c : Config} {pending : Payload} {req : Bool} {q q' : SeqRegs}
    (h : enabledSeq c pending req q = some q') : q'.live = q.live := by
  unfold enabledSeq at h
  split at h
  case h_5 => split at h <;> cases h <;> rfl
  all_goals cases h <;> rfl

theorem seqAfter_live {c : Config} {rst en req : Bool} {pending : Payload} {q q' : SeqRegs}
    (hl : rst = true ∨ q.live = true) (h : seqAfter c rst en req pending q = some q') : q'.live = true := by
  cases rst with
  | true =>
    cases h
    rfl
  | false =>
    have hq : q.live = true := hl.resolve_left Bool.false_ne_true
    cases en with
    | false =>
      cases h
      exact hq
    | true => rw [enabledSeq_live h, hq]

theorem TxView.next_live {d : TxDrive} {v w : TxView} (hl : d.rst = true ∨ v.Live) (h : v.next d = some w) :
    w.Live := by
  obtain ⟨q, hq, rfl⟩ := Option.map_eq_some_iff.mp h
  exact ⟨encAfter_live (hl.imp_right And.left), seqAfter_live (hl.imp_right And.right) hq⟩

/-- An edge of `irig_tx`, with or without one of `irig_rx`, goes on as its view does. -/
theorem step_edge_txView {s : State} {d : TxDrive} {rx : Option RxDrive} {v : TxView}
    (hl : d.rst = true ∨ (txView s).Live) (hrx : ∀ r, rx = some r → r.rst = true ∨ s.rx.live = true)
    (h : (txView s).next d = some v) :
    ∃ t, step (s.setStimulus [.edge (some d) rx]) = .next t ∧ txView t = v ∧ t.rx = edgeRx s rx := by
  obtain ⟨q, hq, rfl⟩ := Option.map_eq_some_iff.mp h
  exact ⟨_, (step_edge_eq_next rfl).mpr ⟨⟨fun _ hd => Option.some.inj hd ▸ hl, hrx⟩, q, hq, rfl⟩, rfl, rfl⟩

theorem step_edge_refused {s : State} {d : TxDrive} (h : (txView s).next d = none) :
    ∃ r, step (s.setStimulus [txOnly d]) = .refused r := by
  cases hstep : step (s.setStimulus [txOnly d]) with
  | next t =>
    obtain ⟨-, q, hq, -⟩ := (step_edge_eq_next rfl).mp hstep
    have hnone : edgeSeq (s.setStimulus [txOnly d]) (some d) = none := Option.map_eq_none_iff.mp h
    cases hq.symm.trans hnone
  | fault f => cases f
  | refused r => exact ⟨r, rfl⟩

/-- A run of edges of a reset transmitter goes on exactly when its view does, and then to the view's end. -/
theorem runLines_txOnly {s : State} (ds : List TxDrive) (hl : (txView s).Live) :
    (∀ v, (txView s).run ds = some v → ∃ t, runLines (ds.map txOnly) s = .next t ∧ txView t = v) ∧
    ((txView s).run ds = none → ∃ r, runLines (ds.map txOnly) s = .refused r) := by
  induction ds generalizing s with
  | nil => exact ⟨fun v hv => ⟨_, rfl, Option.some.inj hv⟩, nofun⟩
  | cons d ds ih =>
    rw [List.map_cons, runLines_cons, TxView.run_cons]
    cases hn : (txView s).next d with
    | none =>
      obtain ⟨r, hr⟩ := step_edge_refused hn
      exact ⟨nofun, fun _ => ⟨r, by rw [hr, andThen_refused]⟩⟩
    | some v =>
      obtain ⟨t, ht, rfl, -⟩ := step_edge_txView (rx := none) (.inr hl) nofun hn
      rw [txOnly, ht, andThen_next]
      exact ih (TxView.next_live (.inr hl) hn)

/-- The end of a run of edges, read back as the end of its view. -/
theorem run_of_runLines_txOnly {s t : State} {ds : List TxDrive} (hl : (txView s).Live)
    (h : runLines (ds.map txOnly) s = .next t) : (txView s).run ds = some (txView t) := by
  obtain ⟨hsome, hnone⟩ := runLines_txOnly ds hl
  cases hrun : (txView s).run ds with
  | none =>
    obtain ⟨r, hr⟩ := hnone hrun
    rw [h] at hr
    cases hr
  | some v =>
    obtain ⟨u, hu, rfl⟩ := hsome v hrun
    rw [h] at hu
    cases hu
    rfl

/-! ### Disabled edges (R177) -/

theorem TxView.next_disabled {d : TxDrive} (v : TxView) (hd : (d.rst || d.en) = false) (hp : d.pend = none) :
    v.next d = some v := by
  obtain ⟨hr, hen⟩ : d.rst = false ∧ d.en = false := by simpa using hd
  rw [TxView.next, hr, hen, hp, seqAfter_disabled, encAfter_disabled]
  rfl

/-- A run is the run of its edges that are not disabled. -/
theorem TxView.run_filter {ds : List TxDrive} (hp : ∀ d ∈ ds, d.pend = none) (v : TxView) :
    v.run (ds.filter fun d => d.rst || d.en) = v.run ds := by
  induction ds generalizing v with
  | nil => rfl
  | cons d ds ih =>
    have htail := ih fun x hx => hp x (List.mem_cons_of_mem d hx)
    cases hd : d.rst || d.en with
    | true =>
      rw [List.filter_cons, if_pos hd, TxView.run_cons, TxView.run_cons]
      exact congrArg _ (funext htail)
    | false =>
      rw [List.filter_cons, if_neg (by simp [hd]), TxView.run_cons,
        v.next_disabled hd (hp d List.mem_cons_self), Option.bind_some, htail]

/-- Two runs with the same view: where one goes on, so does the other, to the same registers of both halves. -/
theorem runLines_txOnly_congr {s t : State} {ds es : List TxDrive} (hl : (txView s).Live)
    (hrun : (txView s).run ds = (txView s).run es) (h : runLines (ds.map txOnly) s = .next t) :
    ∃ u, runLines (es.map txOnly) s = .next u ∧ u.enc = t.enc ∧ u.seq = t.seq := by
  have hview := hrun.symm.trans (run_of_runLines_txOnly hl h)
  obtain ⟨u, hu, huv⟩ := (runLines_txOnly es hl).1 _ hview
  exact ⟨u, hu, congrArg TxView.enc huv, congrArg TxView.seq huv⟩

/-- Settles O36: a disabled edge leaves the view, so a run and its enabled part have the same view; a pulse is gated by
`en`. -/
theorem pauseIsExact : Obligations.PauseIsExact := by
  refine ⟨fun s ds t he hq hp h => ?_, fun s ds u he hq hp h => ?_, fun s rst => ⟨?_, ?_⟩⟩
  · exact runLines_txOnly_congr ⟨he, hq⟩ (TxView.run_filter hp _).symm h
  · obtain ⟨t, ht, henc, hseq⟩ := runLines_txOnly_congr ⟨he, hq⟩ (TxView.run_filter hp _) h
    exact ⟨t, ht, henc.symm, hseq.symm⟩
  · simp [txOut, requestOut]
  · simp [txOut, frameLatchedOut]

/-! ### A symbol held through a bit period (R149) -/

/-- ENC_TICK's vector driven alone is an enabled edge of the encoder half with the driven symbol. -/
theorem step_alone_tick {s : State} (sym : Symbol) (hl : s.enc.live = true) (hc : s.enc.cnt < s.cfg.P) :
    step (s.setStimulus [.alone 0x082 (some sym.code)]) =
      .next ((present (.alone 0x082 (some sym.code)) (s.setStimulus [])).setEnc (enabledEnc s.cfg sym s.enc)) := by
  let s₀ := present (.alone 0x082 (some sym.code)) (s.setStimulus [])
  have hv : aloneVector s₀ 0x082 = (encVector s.cfg s.enc false true 0).toNat := rfl
  rw [step_alone rfl]
  refine (congrArg (runVector · s₀) hv).trans ((runVector_toNat _ _).trans ?_)
  rw [← encAfter_enabled sym hc]
  exact (exec_encVector_symbol_eq_next (s := s₀) rfl).mpr ⟨.inr hl, rfl⟩

theorem times_succ_last (n : Nat) (l : Line) : times (n + 1) l = times n l ++ [l] :=
  times_add n 1 l

/-- The encoder half after `k` ticks of a held symbol, from tick 0. -/
theorem runLines_heldSymbol {s : State} (sym : Symbol) (hl : s.enc.live = true) (hc : s.enc.cnt = 0) {k : Nat}
    (hk : k < s.cfg.P) :
    ∃ t, runLines (times (k + 1) (.alone 0x082 (some sym.code))) s = .next t ∧ t.cfg = s.cfg ∧
      t.enc =
        { live := true, cnt := (k + 1) % s.cfg.P, level := high s.cfg.P sym k, reqQ := decide (k = s.cfg.P - 1) } := by
  induction k with
  | zero =>
    rw [times_succ, runLines_cons, step_alone_tick sym hl (by omega)]
    exact ⟨_, rfl, rfl, by simp [enabledEnc, hl, hc]⟩
  | succ k ih =>
    obtain ⟨t, ht, hcfg, henc⟩ := ih (by omega)
    rw [Nat.mod_eq_of_lt hk] at henc
    rw [times_succ_last, runLines_append, ht, andThen_next, runLines_cons,
      step_alone_tick sym (by rw [henc]) (by rw [henc, hcfg]; exact hk)]
    exact ⟨_, rfl, hcfg, by simp [enabledEnc, hcfg, henc]⟩

/-- Settles O25: the state after the k-th tick, for each k up to P. -/
theorem heldSymbolGivesItsWaveform : Obligations.HeldSymbolGivesItsWaveform := by
  intro s sym k hl hc hk hkP
  obtain ⟨j, rfl⟩ : ∃ j, k = j + 1 := ⟨k - 1, by omega⟩
  obtain ⟨t, ht, -, henc⟩ := runLines_heldSymbol sym hl hc (k := j) hkP
  refine ⟨t, ht, by rw [henc]; rfl, by rw [henc], ?_⟩
  rw [henc]
  exact decide_eq_decide.mpr (by omega)

end Sys2Proof.Machine

/-! PROOF. The transmitter from a reset edge on (42_frame_sequencer.md R172, R173, R175, R178): its two halves after `k`
enabled edges, with the edges counted by bit period and tick. -/

namespace Sys2Proof.Machine

/-! ### Runs from a reset edge -/

/-- The view right after a reset edge (10_state.md R39). -/
def resetView (c : Config) (pending : Payload) : TxView :=
  ⟨c, pending, (State.resetOf c).enc, (State.resetOf c).seq⟩

theorem TxView.next_reset (v : TxView) (pending : Payload) :
    v.next { txRst with pend := some pending } = some (resetView v.cfg pending) := rfl

/-- A tick takes each half to what an enabled edge makes of it. -/
theorem TxView.next_tick {v w : TxView} (hc : v.enc.cnt < v.cfg.P) (hcfg : v.cfg = w.cfg)
    (hpending : v.pending = w.pending) (henc : enabledEnc v.cfg (symbolOf v.seq) v.enc = w.enc)
    (hseq : enabledSeq v.cfg v.pending v.enc.reqQ v.seq = some w.seq) : v.next txTick = some w := by
  rw [← requestOut_enabled v.enc] at hseq
  rw [← encAfter_enabled _ hc] at henc
  refine (congrArg (Option.map _) hseq).trans (congrArg some ?_)
  obtain ⟨cfg, pending, enc, seq⟩ := w
  exact TxView.mk.injEq .. |>.mpr ⟨hcfg, hpending, henc, rfl⟩

theorem TxView.run_ticks_succ (v : TxView) (k : Nat) :
    v.run (List.replicate (k + 1) txTick) = (v.run (List.replicate k txTick)).bind fun w => w.next txTick := by
  rw [List.replicate_succ', TxView.run_append]
  simp

/-- A reset edge and `k` ticks, from any state, in terms of the view. -/
theorem runLines_reset_ticks {s : State} {pending : Payload} {k : Nat} {v : TxView}
    (h : (resetView s.cfg pending).run (List.replicate k txTick) = some v) :
    ∃ t, runLines (txOnly { txRst with pend := some pending } :: times k (txOnly txTick)) s = .next t ∧
      txView t = v := by
  obtain ⟨u, hu, hview, -⟩ := step_edge_txView (rx := none) (.inl rfl) nofun ((txView s).next_reset pending)
  have hlive : (txView u).Live := hview ▸ ⟨rfl, rfl⟩
  have hlines : times k (txOnly txTick) = (List.replicate k txTick).map txOnly := List.map_replicate.symm
  rw [runLines_cons, hlines, txOnly, hu, andThen_next]
  exact (runLines_txOnly _ hlive).1 v (hview ▸ h)

/-! ### One tick per bit period (R178) -/

/-- With P = 1 every edge is a last tick: the token is set again at each. -/
def singleTickView (c : Config) (pending : Payload) (k : Nat) : TxView :=
  ⟨c, pending, { live := true, cnt := 0, level := true, reqQ := true },
    { live := true
      phase := if k = 1 then .await else if k = 2 then .latch else .stream
      index := (k - 3) % c.W
      buf := if k < 3 then 0 else wires c.W pending
      flQ := decide (3 ≤ k ∧ (k - 3) % c.W = 0) }⟩

theorem mod_add_one {n W : Nat} (hW : 0 < W) : (n + 1) % W = if n % W = W - 1 then 0 else n % W + 1 := by
  have hlt := Nat.mod_lt n hW
  rw [Nat.add_mod_eq_ite]
  rcases Nat.lt_or_eq_of_le (Nat.succ_le_of_lt hW) with h1 | rfl
  · rw [Nat.mod_eq_of_lt h1]
    split <;> split <;> omega
  · simp [Nat.mod_one]

/-- An enabled edge of a P = 1 encoder half, whatever it holds. -/
theorem enabledEnc_single {c : Config} (hP : c.P = 1) (sym : Symbol) {e : EncRegs} (hl : e.live = true)
    (hc : e.cnt = 0) : enabledEnc c sym e = { live := true, cnt := 0, level := true, reqQ := true } := by
  simp [enabledEnc, hP, hl, hc, high_tick_zero]

theorem singleTickView_next {c : Config} (hP : c.P = 1) (pending : Payload) {k : Nat} (hk : 1 ≤ k) :
    (singleTickView c pending k).next txTick = some (singleTickView c pending (k + 1)) := by
  refine TxView.next_tick (v := singleTickView c pending k) (w := singleTickView c pending (k + 1)) c.P_pos rfl rfl
    (enabledEnc_single hP _ rfl rfl) ?_
  obtain rfl | rfl | hk3 : k = 1 ∨ k = 2 ∨ 3 ≤ k := by omega
  · simp [enabledSeq, singleTickView]
  · simp [enabledSeq, singleTickView]
  · obtain ⟨j, rfl⟩ : ∃ j, k = j + 3 := ⟨k - 3, by omega⟩
    have hmod := mod_add_one (n := j) c.W_pos
    have hsub : j + 3 + 1 - 3 = j + 1 := by omega
    by_cases hlast : j % c.W = c.W - 1 <;> simp [enabledSeq, singleTickView, hsub, hmod, hlast]

theorem run_singleTick {c : Config} (hP : c.P = 1) (pending : Payload) (k : Nat) :
    (resetView c pending).run (List.replicate (k + 1) txTick) = some (singleTickView c pending (k + 1)) := by
  induction k with
  | zero =>
    rw [TxView.run_ticks_succ, List.replicate_zero, TxView.run_nil, Option.bind_some]
    exact TxView.next_tick (v := resetView c pending) (w := singleTickView c pending 1) c.P_pos rfl rfl
      (enabledEnc_single hP _ rfl rfl) rfl
  | succ k ih => rw [TxView.run_ticks_succ, ih, Option.bind_some, singleTickView_next hP pending (by omega)]

/-- Settles O38: one edge at a time, from the reset edge. -/
theorem singleTickTimeline : Obligations.SingleTickTimeline := by
  intro s pend k hP hk W
  obtain ⟨j, rfl⟩ : ∃ j, k = j + 1 := ⟨k - 1, by omega⟩
  obtain ⟨t, ht, hview⟩ := runLines_reset_ticks (run_singleTick hP pend j)
  exact ⟨t, ht, congrArg TxView.enc hview, congrArg TxView.seq hview⟩

/-! ### Several ticks per bit period (R172, R173, R175) -/

/-- The symbol sent in a bit period: the bootstrap Marker, then the latched frame over and over. -/
def periodSymbol (c : Config) (pending : Payload) (period : Nat) : Symbol :=
  if period = 0 then .marker
  else
    symbolOf { live := true, phase := .stream, index := (period - 1) % c.W, buf := wires c.W pending, flQ := false }

/-- Both halves after tick `tick` of bit period `period`, counted from the reset edge. -/
def timelineView (c : Config) (pending : Payload) (period tick : Nat) : TxView :=
  ⟨c, pending,
    { live := true
      cnt := (tick + 1) % c.P
      level := high c.P (periodSymbol c pending period) tick
      reqQ := decide (tick + 1 = c.P) },
    { live := true
      phase := if period = 0 then .await else if period = 1 ∧ tick = 0 then .latch else .stream
      index := if period = 0 then 0 else (period - 1) % c.W
      buf := if period = 0 ∨ period = 1 ∧ tick = 0 then 0 else wires c.W pending
      flQ := decide (period = 1 ∧ tick = 1 ∨ 2 ≤ period ∧ tick = 0 ∧ (period - 1) % c.W = 0) }⟩

/-- The sequencer half shows the symbol of the bit period, also while the first one still has an empty buffer. -/
theorem symbolOf_timelineView (c : Config) (pending : Payload) (period tick : Nat) :
    symbolOf (timelineView c pending period tick).seq = periodSymbol c pending period := by
  rcases Nat.eq_zero_or_pos period with rfl | hp
  · exact symbolOf_index_zero rfl
  by_cases hfirst : period = 1 ∧ tick = 0
  · obtain ⟨rfl, rfl⟩ := hfirst
    rw [symbolOf_index_zero rfl, periodSymbol, if_neg (by decide), symbolOf_index_zero (Nat.zero_mod _)]
  · have h0 : period ≠ 0 := by omega
    simp [timelineView, periodSymbol, symbolOf, h0, hfirst]

theorem resetView_next {c : Config} (hP : 2 ≤ c.P) (pending : Payload) :
    (resetView c pending).next txTick = some (timelineView c pending 0 0) := by
  have h1 : 1 ≠ c.P := by omega
  have hlast : 0 ≠ c.P - 1 := by omega
  refine TxView.next_tick (v := resetView c pending) (w := timelineView c pending 0 0) c.P_pos rfl rfl ?_ ?_
  · simp [resetView, State.resetOf, enabledEnc, timelineView, periodSymbol, symbolOf_index_zero, h1, hlast]
  · simp [resetView, State.resetOf, enabledSeq, timelineView]

/-- A tick within a bit period. -/
theorem timelineView_next_within {c : Config} (pending : Payload) {period tick : Nat} (ht : tick + 1 < c.P) :
    (timelineView c pending period tick).next txTick = some (timelineView c pending period (tick + 1)) := by
  have hcnt : (tick + 1) % c.P = tick + 1 := Nat.mod_eq_of_lt ht
  have hreq : (timelineView c pending period tick).enc.reqQ = false := decide_eq_false ht.ne
  refine TxView.next_tick (v := timelineView c pending period tick) (w := timelineView c pending period (tick + 1))
    (Nat.mod_lt _ c.P_pos) rfl rfl ?enc ?seq
  case enc =>
    rw [symbolOf_timelineView]
    simp [enabledEnc, timelineView, hcnt]
    omega
  case seq =>
    rw [hreq]
    rcases Nat.eq_zero_or_pos period with rfl | hp
    · simp [enabledSeq, timelineView]
    have h0 : period ≠ 0 := by omega
    by_cases hfirst : period = 1 ∧ tick = 0
    · obtain ⟨rfl, rfl⟩ := hfirst
      simp [enabledSeq, timelineView]
    · simp [enabledSeq, timelineView, h0, hfirst]

/-- The last tick of a bit period: the request steps the sequencer half into the next one. -/
theorem timelineView_next_period {c : Config} (hP : 2 ≤ c.P) (pending : Payload) {period tick : Nat}
    (ht : tick + 1 = c.P) :
    (timelineView c pending period tick).next txTick = some (timelineView c pending (period + 1) 0) := by
  have hreq : (timelineView c pending period tick).enc.reqQ = true := decide_eq_true ht
  refine TxView.next_tick (v := timelineView c pending period tick) (w := timelineView c pending (period + 1) 0)
    (Nat.mod_lt _ c.P_pos) rfl rfl ?enc ?seq
  case enc =>
    have h1 : 1 ≠ c.P := by omega
    have hlast : 0 ≠ c.P - 1 := by omega
    simp [enabledEnc, timelineView, ht, high_tick_zero c.P_pos, h1, hlast]
  case seq =>
    rw [hreq]
    rcases Nat.eq_zero_or_pos period with rfl | hp
    · simp [enabledSeq, timelineView]
    obtain ⟨j, rfl⟩ : ∃ j, period = j + 1 := ⟨period - 1, by omega⟩
    have htick : tick ≠ 0 := by omega
    have hmod := mod_add_one (n := j) c.W_pos
    by_cases hlast : j % c.W = c.W - 1 <;> simp [enabledSeq, timelineView, htick, hmod, hlast]

theorem div_mod_add_one {n P : Nat} (hP : 0 < P) :
    (n % P + 1 < P ∧ (n + 1) / P = n / P ∧ (n + 1) % P = n % P + 1) ∨
    (n % P + 1 = P ∧ (n + 1) / P = n / P + 1 ∧ (n + 1) % P = 0) := by
  have hn := Nat.mod_add_div n P
  have hlt := Nat.mod_lt n hP
  rcases Nat.lt_or_eq_of_le (Nat.succ_le_of_lt hlt) with h | h
  · exact .inl ⟨h, (Nat.div_mod_unique hP).mpr ⟨by omega, h⟩⟩
  · refine .inr ⟨h, (Nat.div_mod_unique hP).mpr ⟨?_, hP⟩⟩
    rw [Nat.mul_add]
    omega

/-- Both halves after a reset edge and `k` ticks: bit period and tick are quotient and remainder of k - 1. -/
def tickView (c : Config) (pending : Payload) : Nat → TxView
  | 0 => resetView c pending
  | k + 1 => timelineView c pending (k / c.P) (k % c.P)

theorem tickView_next {c : Config} (hP : 2 ≤ c.P) (pending : Payload) (k : Nat) :
    (tickView c pending k).next txTick = some (tickView c pending (k + 1)) := by
  cases k with
  | zero =>
    rw [tickView, tickView, Nat.zero_div, Nat.zero_mod]
    exact resetView_next hP pending
  | succ k =>
    rw [tickView, tickView]
    rcases div_mod_add_one (n := k) c.P_pos with ⟨ht, hdiv, hmod⟩ | ⟨ht, hdiv, hmod⟩
    · rw [timelineView_next_within pending ht, hdiv, hmod]
    · rw [timelineView_next_period hP pending ht, hdiv, hmod]

theorem tickView_live (c : Config) (pending : Payload) (k : Nat) : (tickView c pending k).Live := by
  cases k <;> exact ⟨rfl, rfl⟩

theorem run_ticks {c : Config} (hP : 2 ≤ c.P) (pending : Payload) (k : Nat) :
    (resetView c pending).run (List.replicate k txTick) = some (tickView c pending k) := by
  induction k with
  | zero => rfl
  | succ k ih => rw [TxView.run_ticks_succ, ih, Option.bind_some, tickView_next hP]

/-! The bit period and tick of an edge, in the edge numbers of the rules. -/

theorem div_eq_zero_iff_edge {k P : Nat} (hP : 0 < P) : k / P = 0 ↔ k + 1 ≤ P :=
  (Nat.div_eq_zero_iff_lt hP).trans Nat.lt_iff_add_one_le

theorem div_mod_eq_iff_edge {k P r : Nat} (hr : r < P) : (k / P = 1 ∧ k % P = r) ↔ k + 1 = P + r + 1 := by
  rw [Nat.div_mod_unique (by omega)]
  omega

/-- The latch edges of the frames after the first: the periods 1, W + 1, 2·W + 1, … start there (R175). -/
theorem latchPeriod_iff_edge {k P W : Nat} (hP : 0 < P) (hW : 0 < W) :
    (2 ≤ k / P ∧ k % P = 0 ∧ (k / P - 1) % W = 0) ↔ ∃ n, 2 ≤ n ∧ k + 1 = (n - 1) * (W * P) + P + 1 := by
  constructor
  · rintro ⟨h2, h0, hW0⟩
    obtain ⟨m, hm⟩ := Nat.dvd_of_mod_eq_zero hW0
    have hm0 : m ≠ 0 := by
      rintro rfl
      omega
    have hk := Nat.mod_add_div k P
    have hdiv : k / P = W * m + 1 := by omega
    refine ⟨m + 1, by omega, ?_⟩
    rw [Nat.add_sub_cancel, ← hk, h0, hdiv]
    ring
  · rintro ⟨n, hn, hk⟩
    obtain ⟨m, rfl⟩ : ∃ m, n = m + 2 := ⟨n - 2, by omega⟩
    have hk : 0 + P * ((m + 1) * W + 1) = k := by
      rw [show m + 2 - 1 = m + 1 by omega] at hk
      linarith
    obtain ⟨hdiv, hmod⟩ := (Nat.div_mod_unique hP).mpr ⟨hk, hP⟩
    have hge : W ≤ (m + 1) * W := Nat.le_mul_of_pos_left W (by omega)
    exact ⟨by omega, hmod, by simp [hdiv]⟩

/-- Settles O37: the bit period and tick after `k` edges are quotient and remainder of k - 1. -/
theorem transmitterTimeline : Obligations.TransmitterTimeline := by
  intro s pend k hP hk P W period
  obtain ⟨j, rfl⟩ : ∃ j, k = j + 1 := ⟨k - 1, by omega⟩
  obtain ⟨t, ht, hview⟩ := runLines_reset_ticks (run_ticks hP pend (j + 1))
  have henc : t.enc = (timelineView s.cfg pend (j / P) (j % P)).enc := congrArg TxView.enc hview
  have hseq : t.seq = (timelineView s.cfg pend (j / P) (j % P)).seq := congrArg TxView.seq hview
  have hfirst : j / P = 0 ↔ j + 1 ≤ P := div_eq_zero_iff_edge s.cfg.P_pos
  have hlatch : (j / P = 1 ∧ j % P = 0) ↔ j + 1 = P + 1 := div_mod_eq_iff_edge s.cfg.P_pos
  have hfl : (j / P = 1 ∧ j % P = 1) ↔ j + 1 = P + 2 := div_mod_eq_iff_edge hP
  have hfls : (2 ≤ j / P ∧ j % P = 0 ∧ (j / P - 1) % W = 0) ↔ ∃ n, 2 ≤ n ∧ j + 1 = (n - 1) * (W * P) + P + 1 :=
    latchPeriod_iff_edge s.cfg.P_pos s.cfg.W_pos
  have hmod : (j % P + 1) % P = (j + 1) % P := Nat.mod_add_mod j P 1
  refine ⟨t, ht, by rw [henc]; rfl, by rw [hseq]; rfl, by rw [henc]; exact hmod, ?reqQ, ?phase, ?index, ?flQ, ?buf,
    ?level⟩
  case reqQ =>
    rw [henc]
    refine decide_eq_decide.mpr ?_
    rcases div_mod_add_one (n := j) s.cfg.P_pos with ⟨hr, -, hm⟩ | ⟨hr, -, hm⟩
    · exact iff_of_false hr.ne (by rw [hm]; omega)
    · exact iff_of_true hr hm
  case phase =>
    rw [hseq]
    simp only [timelineView, hfirst, hlatch]
  case index =>
    rw [hseq]
    simp only [timelineView, hfirst]
    rfl
  case flQ =>
    rw [hseq]
    exact decide_eq_true_iff.trans (or_congr hfl hfls)
  case buf =>
    rw [hseq]
    simp only [timelineView, hfirst, hlatch]
    exact if_congr (by omega) rfl rfl
  case level =>
    rw [henc]
    rfl

end Sys2Proof.Machine

/-! PROOF. The receiver on whole pulses and frames (43_demodulator.md R209, R211, R212): a pulse of the duty function
appends its own symbol, so the pulses of an encoded frame fill the register with the frame, which DECODE accepts. -/

namespace Sys2Proof.Machine

/-! ### A pulse is classified as its symbol (R209) -/

theorem classify_highTicks {P : Nat} (hP : 3 ≤ P) (sym : Symbol) : classify P (highTicks P sym) = some sym := by
  cases sym with
  | zero =>
    rw [classify_eq_zero_iff, highTicks_zero]
    omega
  | one =>
    rw [classify_eq_one_iff, highTicks_one]
    omega
  | marker =>
    rw [classify_eq_marker_iff, highTicks_marker]
    omega

theorem highTicks_marker_lt_iff {P : Nat} : highTicks P .marker < P ↔ 5 ≤ P := by
  rw [highTicks_marker]
  omega

/-- Settles O54: the counts of R142 against the thresholds of R201; for P = 1 and P = 2 a Zero is not told from One. -/
theorem pulsesClassifyBack : Obligations.PulsesClassifyBack := by
  refine fun P hP => ⟨⟨fun h => ?_, fun h sym => classify_highTicks h sym⟩, highTicks_marker_lt_iff⟩
  have hzero := classify_eq_zero_iff.mp (h .zero)
  rw [highTicks_zero] at hzero
  omega

/-! ### The levels of a pulse and of a frame (R141, R142, R90) -/

/-- The levels of a bit period, tick by tick. -/
def pulseLevels (P : Nat) (sym : Symbol) : List Bool := (List.range P).map (high P sym)

/-- The levels of a frame, tick by tick. -/
def frameLevels (P : Nat) (frame : List Symbol) : List Bool := frame.flatMap (pulseLevels P)

theorem highTicks_le (P : Nat) (sym : Symbol) : highTicks P sym ≤ P :=
  (List.countP_le_length ..).trans List.length_range.le

/-- High ticks first, then low ones. -/
theorem pulseLevels_eq (P : Nat) (sym : Symbol) :
    pulseLevels P sym =
      List.replicate (highTicks P sym) true ++ List.replicate (P - highTicks P sym) false := by
  have hle := highTicks_le P sym
  apply List.ext_getElem
  · simp [pulseLevels]
    omega
  · intro i hi hi'
    rw [List.getElem_append]
    by_cases h : i < highTicks P sym
    · simp [pulseLevels, h, high_iff_lt_highTicks.mpr h]
    · have hlow : high P sym i = false := by
        rw [Bool.eq_false_iff, Ne, high_iff_lt_highTicks]
        exact h
      simp [pulseLevels, h, hlow]

theorem frameLevels_append_singleton (P : Nat) (xs : List Symbol) (x : Symbol) :
    frameLevels P (xs ++ [x]) = frameLevels P xs ++ pulseLevels P x := by
  simp [frameLevels]

/-- The levels of W bit periods are those of W·P ticks, numbered through. -/
theorem frameLevels_map_range {P : Nat} (hP : 0 < P) (f : Nat → Symbol) (W : Nat) :
    frameLevels P ((List.range W).map f) = (List.range (W * P)).map fun j => high P (f (j / P)) (j % P) := by
  induction W with
  | zero => simp [frameLevels]
  | succ W ih =>
    have hperiod : (List.range P).map ((fun j => high P (f (j / P)) (j % P)) ∘ fun i => W * P + i) =
        pulseLevels P (f W) := by
      apply List.map_congr_left
      intro i hi
      have hi : i < P := List.mem_range.mp hi
      rw [Function.comp_apply, Nat.add_comm, Nat.add_mul_div_right _ _ hP, Nat.add_mul_mod_self_right,
        Nat.div_eq_of_lt hi, Nat.mod_eq_of_lt hi, Nat.zero_add]
    rw [List.range_succ, List.map_append, List.map_singleton, frameLevels_append_singleton, ih, Nat.succ_mul,
      List.range_add, List.map_append, List.map_map, hperiod]

/-! ### Feeding the receiver -/

/-- The receiver after valid samples, one per edge. -/
def rxFeed (c : Config) (samples : List Bool) (r : RxRegs) : RxRegs :=
  samples.foldl (fun r x => rxAfter c false true x false r) r

@[simp] theorem rxFeed_nil (c : Config) (r : RxRegs) : rxFeed c [] r = r := rfl

@[simp] theorem rxFeed_cons (c : Config) (x : Bool) (xs : List Bool) (r : RxRegs) :
    rxFeed c (x :: xs) r = rxFeed c xs (rxAfter c false true x false r) := rfl

theorem rxFeed_append (c : Config) (xs ys : List Bool) (r : RxRegs) :
    rxFeed c (xs ++ ys) r = rxFeed c ys (rxFeed c xs r) := List.foldl_append ..

theorem rxAfter_sample {c : Config} {r : RxRegs} (hdone : r.done = false) (x : Bool) :
    rxAfter c false true x false r = rxSample c x r := by
  simp [rxAfter, hdone]

theorem rxAfter_idle (c : Config) (x : Bool) (r : RxRegs) : rxAfter c false false x false r = r := by
  simp [rxAfter]

/-- High samples count up to P. -/
theorem rxFeed_high {c : Config} {r : RxRegs} (hdone : r.done = false) (n : Nat) :
    rxFeed c (List.replicate (n + 1) true) r = { r with cnt := min (r.cnt + n + 1) c.P, prev := true } := by
  induction n generalizing r with
  | zero => simp [rxAfter_sample hdone, rxSample]
  | succ n ih =>
    rw [List.replicate_succ, rxFeed_cons, rxAfter_sample hdone, ih (r := rxSample c true r) hdone]
    simp only [rxSample, if_true, RxRegs.mk.injEq, and_true, true_and]
    omega

/-- Low samples after a low one, or after the end of the call, change nothing. -/
theorem rxFeed_low {c : Config} {r : RxRegs} (h : r.done = true ∨ r.prev = false) (n : Nat) :
    rxFeed c (List.replicate n false) r = r := by
  have hstay : rxAfter c false true false false r = r := by
    cases hdone : r.done with
    | true => simp [rxAfter, hdone]
    | false =>
      have hprev : r.prev = false := h.resolve_left (by simp [hdone])
      rw [rxAfter_sample hdone, rxSample, if_neg Bool.false_ne_true, if_neg (by simp [hprev]), ← hprev]
  induction n with
  | zero => rfl
  | succ n ih => rw [List.replicate_succ, rxFeed_cons, hstay, ih]

theorem appendSymbol_prev (W : Nat) (sym : Symbol) (r : RxRegs) : (appendSymbol W sym r).prev = r.prev := by
  by_cases h : r.n + 1 = W
  · rw [appendSymbol_last h]
  · rw [appendSymbol_of_ne h]

/-- For P ≥ 5 every pulse ends low inside its bit period. -/
theorem highTicks_bounds {P : Nat} (hP : 5 ≤ P) (sym : Symbol) : 0 < highTicks P sym ∧ highTicks P sym < P := by
  cases sym with
  | zero =>
    rw [highTicks_zero]
    omega
  | one =>
    rw [highTicks_one]
    omega
  | marker =>
    rw [highTicks_marker]
    omega

/-- A whole pulse appends its symbol. -/
theorem rxFeed_pulse {c : Config} (hP : 5 ≤ c.P) {r : RxRegs} (hdone : r.done = false) (hprev : r.prev = false)
    (hcnt : r.cnt = 0) (sym : Symbol) : rxFeed c (pulseLevels c.P sym) r = appendSymbol c.W sym r := by
  obtain ⟨hpos, hlt⟩ := highTicks_bounds hP sym
  obtain ⟨h, hh⟩ : ∃ h, highTicks c.P sym = h + 1 := ⟨highTicks c.P sym - 1, by omega⟩
  obtain ⟨l, hl⟩ : ∃ l, c.P - highTicks c.P sym = l + 1 := ⟨c.P - highTicks c.P sym - 1, by omega⟩
  have hcount : min (r.cnt + h + 1) c.P = highTicks c.P sym := by omega
  have hclassify := classify_highTicks (by omega : 3 ≤ c.P) sym
  have hclear : { r with cnt := 0, prev := false } = r := by rw [← hprev, ← hcnt]
  rw [pulseLevels_eq, rxFeed_append, hl, hh, rxFeed_high hdone, hcount, List.replicate_succ, rxFeed_cons,
    rxAfter_sample (r := { r with cnt := _, prev := true }) hdone, rxSample, if_neg Bool.false_ne_true, if_pos rfl,
    rxFallen]
  simp only [hclassify, hclear]
  exact rxFeed_low (.inr ((appendSymbol_prev _ _ _).trans hprev)) l

/-! ### Feeding a frame -/

/-- A running receiver that has collected the symbols `xs`. -/
def collected (c : Config) (xs : List Symbol) : RxRegs :=
  { live := true, prev := false, cnt := 0, n := xs.length
    syms := xs.map Symbol.code ++ List.replicate (c.W - xs.length) Symbol.zero.code
    done := false, status := .ok, ts := 0 }

theorem resetOf_rx_eq_collected (c : Config) : (State.resetOf c).rx = collected c [] := rfl

/-- Writing the next symbol of a frame. -/
theorem collected_syms_set {c : Config} {xs : List Symbol} (h : xs.length < c.W) (x : Symbol) :
    (collected c xs).syms.set xs.length x.code =
      (xs ++ [x]).map Symbol.code ++ List.replicate (c.W - (xs ++ [x]).length) Symbol.zero.code := by
  obtain ⟨m, hm⟩ : ∃ m, c.W - xs.length = m + 1 := ⟨c.W - xs.length - 1, by omega⟩
  have hm' : c.W - (xs.length + 1) = m := by omega
  simp [collected, hm, hm', List.replicate_succ]

theorem rxFeed_partialFrame {c : Config} (hP : 5 ≤ c.P) {xs : List Symbol} (h : xs.length < c.W) :
    rxFeed c (frameLevels c.P xs) (collected c []) = collected c xs := by
  induction xs using List.reverseRecOn with
  | nil => rfl
  | append_singleton xs x ih =>
    rw [List.length_append, List.length_singleton] at h
    rw [frameLevels_append_singleton, rxFeed_append, ih (by omega),
      rxFeed_pulse hP rfl rfl rfl, appendSymbol_of_ne (r := collected c xs) (show xs.length + 1 ≠ c.W by omega)]
    refine (congrArg (fun syms => { collected c xs with n := xs.length + 1, syms := syms })
      (collected_syms_set (c := c) (xs := xs) (by omega) x)).trans ?_
    simp [collected]

/-- W pulses end the call with DECODE of the symbols sent. -/
theorem rxFeed_frame {c : Config} (hP : 5 ≤ c.P) {frame : List Symbol} (hlen : frame.length = c.W) :
    rxFeed c (frameLevels c.P frame) (State.resetOf c).rx =
      { live := true, prev := false, cnt := 0, n := c.W, syms := frame.map Symbol.code, done := true
        status := (decodeFrame c.W (frame.map Symbol.code)).status
        ts := (decodeFrame c.W (frame.map Symbol.code)).ts } := by
  have hne : frame ≠ [] := List.ne_nil_of_length_pos (hlen ▸ c.W_pos)
  obtain ⟨xs, x, rfl⟩ : ∃ xs x, frame = xs ++ [x] := ⟨_, _, (List.dropLast_append_getLast hne).symm⟩
  have hxs : xs.length + 1 = c.W := by simpa using hlen
  have hset := collected_syms_set (show xs.length < c.W by omega) x
  rw [List.length_append, List.length_singleton, hxs, Nat.sub_self, List.replicate_zero, List.append_nil] at hset
  rw [resetOf_rx_eq_collected, frameLevels_append_singleton, rxFeed_append, rxFeed_partialFrame hP (by omega),
    rxFeed_pulse hP rfl rfl rfl, appendSymbol_last (r := collected c xs) hxs]
  simp only [show (collected c xs).n = xs.length from rfl, hset, hxs]
  rfl

/-- The receiver after a frame of a timestamp: done, with the timestamp. -/
def receivedRegs (c : Config) (t : Timestamp) : RxRegs :=
  { live := true, prev := false, cnt := 0, n := c.W, syms := (frameOf c.W t).map Symbol.code
    done := true, status := .ok, ts := t.toWord }

theorem rxFeed_frameOf {c : Config} (hP : 5 ≤ c.P) {t : Timestamp} (hy : yearInRange t = true)
    (hf : fieldsInRange t = true) :
    rxFeed c (frameLevels c.P (frameOf c.W t)) (State.resetOf c).rx = receivedRegs c t := by
  rw [rxFeed_frame hP (frameOf_length c.W t), decodeFrame_frameOf (Nat.le_of_succ_le c.le_W) hy hf]
  rfl

theorem appendSymbol_live (W : Nat) (sym : Symbol) (r : RxRegs) : (appendSymbol W sym r).live = r.live := by
  by_cases h : r.n + 1 = W
  · rw [appendSymbol_last h]
  · rw [appendSymbol_of_ne h]

theorem rxSample_live (c : Config) (x : Bool) (r : RxRegs) : (rxSample c x r).live = r.live := by
  cases x with
  | true => rfl
  | false =>
    rw [rxSample, if_neg Bool.false_ne_true]
    split
    · rw [rxFallen]
      cases classify c.P r.cnt with
      | none => rfl
      | some sym => exact appendSymbol_live _ _ _
    · rfl

/-- A receiver that has been reset stays so. -/
theorem rxAfter_live (c : Config) (valid sample ended : Bool) (r : RxRegs) :
    (rxAfter c false valid sample ended r).live = r.live := by
  rw [rxAfter, if_neg Bool.false_ne_true]
  split_ifs
  · rfl
  · rfl
  · exact rxSample_live _ _ _
  · rfl

/-! ### The stream of R90 -/

/-- The drive of a sample. -/
def sampleDrive (x : Bool) : RxDrive := if x then rxS1 else rxS0

theorem rxStream_eq (P : Nat) (frame : List Symbol) :
    rxStream P frame = (frameLevels P frame).map fun x => rxOnly (sampleDrive x) := by
  rw [rxStream, frameLevels, List.map_flatMap]
  congr 1
  funext sym
  rw [rxPulse, pulseLevels_eq, List.map_append, List.map_replicate, List.map_replicate]
  rfl

theorem step_rxOnly_goesOn {s : State} {d : RxDrive} (hl : d.rst = true ∨ s.rx.live = true) :
    ∃ t, step (s.setStimulus [rxOnly d]) = .next t ∧ t.cfg = s.cfg ∧ t.rx = edgeRx s (some d) :=
  ⟨_, (step_edge_eq_next rfl).mpr ⟨⟨nofun, fun _ hr => Option.some.inj hr ▸ hl⟩, _, rfl, rfl⟩, rfl, rfl⟩

/-- A run of sample lines feeds the receiver. -/
theorem runLines_samples {s : State} (hl : s.rx.live = true) (xs : List Bool) :
    ∃ u, runLines (xs.map fun x => rxOnly (sampleDrive x)) s = .next u ∧ u.rx = rxFeed s.cfg xs s.rx := by
  induction xs generalizing s with
  | nil => exact ⟨_, rfl, rfl⟩
  | cons x xs ih =>
    obtain ⟨t, ht, hcfg, hrx⟩ := step_rxOnly_goesOn (d := sampleDrive x) (.inr hl)
    have hafter : t.rx = rxAfter s.cfg false true x false s.rx := by
      rw [hrx]
      cases x <;> rfl
    rw [List.map_cons, runLines_cons, ht, andThen_next, rxFeed_cons, ← hafter, ← hcfg]
    exact ih (by rw [hafter, rxAfter_live, hl])

/-- Settles O55: the stream is the levels of the frame, which feed the reset receiver. -/
theorem receiverDecodesTheEncodedStream : Obligations.ReceiverDecodesTheEncodedStream := by
  intro s t hP hy hf
  obtain ⟨r, hr, hcfg, hrx⟩ := step_rxOnly_goesOn (s := s) (d := rxRst) (.inl rfl)
  have hreset : r.rx = (State.resetOf s.cfg).rx := hrx
  obtain ⟨u, hu, hurx⟩ := runLines_samples (s := r) (by rw [hreset]; rfl) (frameLevels s.cfg.P (frameOf s.cfg.W t))
  refine ⟨u, ?_, ?_⟩
  · rw [runLines_cons, hr, andThen_next, rxStream_eq, hu]
  · rw [hurx, hcfg, hreset, rxFeed_frameOf hP hy hf]
    rfl

/-! ### The loop of R211 -/

/-- From bit period 1 on, edge P + 1, the transmitter sends the levels of the frame it latched. -/
theorem tickView_level {c : Config} (t : Timestamp) {j : Nat} (hj : j < c.W * c.P) :
    (tickView c (payloadOf (frameOf c.W t)) (c.P + 1 + j)).enc.level =
      high c.P (encodeSymbol t (j / c.P)) (j % c.P) := by
  have hi : j / c.P < c.W := Nat.div_lt_of_lt_mul (Nat.mul_comm c.W c.P ▸ hj)
  have hbuf : wires c.W (payloadOf (frameOf c.W t)) = payloadOf (frameOf c.W t) := by
    apply BitVec.eq_of_getLsbD_eq
    intro i _
    rw [wires_getLsbD, payloadOf_frameOf_getLsbD c.W_le]
    cases decide (i < c.W) <;> simp
  have hsym : periodSymbol c (payloadOf (frameOf c.W t)) (j / c.P + 1) = encodeSymbol t (j / c.P) := by
    rw [periodSymbol, if_neg (Nat.succ_ne_zero _), Nat.add_sub_cancel, Nat.mod_eq_of_lt hi, hbuf]
    exact symbolOf_payloadOf_frameOf c.W_le rfl hi
  rw [Nat.add_right_comm, tickView, Nat.add_div_left _ c.P_pos, Nat.add_mod_left, ← hsym]
  rfl

theorem frameLevels_eq_tickView {c : Config} (t : Timestamp) :
    (List.range (c.W * c.P)).map (fun j => (tickView c (payloadOf (frameOf c.W t)) (c.P + 1 + j)).enc.level) =
      frameLevels c.P (frameOf c.W t) := by
  rw [frameOf, frameLevels_map_range c.P_pos]
  exact List.map_congr_left fun j hj => tickView_level t (List.mem_range.mp hj)

/-- A run of ticks of a set-up with both blocks: the transmitter runs through its views, and the receiver sees at each
edge the sample that the view before it gives. -/
theorem runLines_bothTicks {s : State} {r : RxDrive} {views : Nat → TxView} {sample : TxView → Bool}
    (hview : txView s = views 0) (hlive : ∀ k, (views k).Live)
    (hnext : ∀ k, (views k).next txTick = some (views (k + 1))) (hr : r.rst = false)
    (hsample : ∀ u, sampleLevel u r.sample = sample (txView u)) (hrx : s.rx.live = true) (n : Nat) :
    ∃ u, runLines (times n (.edge (some txTick) (some r))) s = .next u ∧ txView u = views n ∧ u.rx.live = true ∧
      u.rx = (List.range n).foldl (fun x k => rxAfter s.cfg false r.valid (sample (views k)) r.ended x) s.rx := by
  have hcfg : ∀ k, (views k).cfg = s.cfg := by
    intro k
    induction k with
    | zero => rw [← hview]; rfl
    | succ k ih =>
      obtain ⟨q, -, hq⟩ := Option.map_eq_some_iff.mp (hnext k)
      rw [← hq, ← ih]
  induction n with
  | zero => exact ⟨_, rfl, hview, hrx, rfl⟩
  | succ n ih =>
    obtain ⟨u, hu, huv, hul, hur⟩ := ih
    obtain ⟨v, hv, hvv, hvr⟩ := step_edge_txView (s := u) (rx := some r) (.inr (huv ▸ hlive n))
      (fun _ _ => .inr hul) (huv ▸ hnext n)
    have hucfg : u.cfg = s.cfg := (congrArg TxView.cfg huv).trans (hcfg n)
    have hvr' : v.rx = rxAfter s.cfg false r.valid (sample (views n)) r.ended u.rx := by
      rw [hvr, edgeRx, Option.elim_some, hr, hsample, huv, hucfg]
    have hvl : v.rx.live = true := by rw [hvr', rxAfter_live, hul]
    refine ⟨v.setStimulus [], ?_, hvv, hvl, ?_⟩
    · rw [times_succ_last, runLines_append, hu, andThen_next, runLines_cons, hv, andThen_next, runLines_nil]
    · rw [State.setStimulus_rx]
      rw [List.range_succ, List.foldl_append, ← hur, hvr']
      rfl

/-- Settles O56: the receiver idles until bit period 1 begins, then takes the levels of the first frame. -/
theorem loopedReceiverDecodesTheFirstFrame : Obligations.LoopedReceiverDecodesTheFirstFrame := by
  intro s t hP hy hf frame
  have hP2 : 2 ≤ s.cfg.P := by omega
  let pending := payloadOf frame
  obtain ⟨a, ha, hav, har⟩ := step_edge_txView (s := s) (rx := some rxRst) (.inl rfl)
    (fun _ hr => .inl (Option.some.inj hr ▸ rfl)) ((txView s).next_reset pending)
  obtain ⟨b, hb, hbv, hbl, hbr⟩ := runLines_bothTicks (s := a) (r := rxIdle) (views := tickView s.cfg pending)
    (sample := fun _ => false) hav (tickView_live _ _) (tickView_next hP2 _) rfl (fun _ => rfl) (har ▸ rfl)
    (s.cfg.P + 1)
  obtain ⟨u, hu, -, -, hur⟩ := runLines_bothTicks (s := b) (r := { rxS0 with sample := .txLevel })
    (views := fun k => tickView s.cfg pending (s.cfg.P + 1 + k)) (sample := fun v => v.enc.level) hbv
    (fun k => tickView_live _ _ _) (fun k => tickView_next hP2 _ _) rfl (fun _ => rfl) hbl (s.cfg.W * s.cfg.P)
  refine ⟨u, ?_, ?_⟩
  · rw [runLines_cons, bothBlocks, txPend]
    refine (congrArg (andThen · _) ha).trans ?_
    rw [andThen_next, runLines_append]
    exact (congrArg (andThen · _) hb).trans hu
  · have hbcfg : b.cfg = s.cfg := congrArg TxView.cfg hbv
    have hidle : b.rx = (State.resetOf s.cfg).rx := by
      rw [hbr]
      simp only [rxIdle, rxAfter_idle, List.foldl_fixed, har]
      rfl
    have hfeed : u.rx = rxFeed s.cfg (frameLevels s.cfg.P frame) (State.resetOf s.cfg).rx := by
      rw [hur, hbcfg, hidle, ← frameLevels_eq_tickView, rxFeed, List.foldl_map]
      rfl
    rw [hfeed, rxFeed_frameOf hP hy hf]
    rfl

end Sys2Proof.Machine
